-- ==== Sys2Proof/Word.lean ====
section
/-! DEFINITION. The widths the core's bus, command register and byte stream use. -/

namespace Sys2Proof

/-- A register, a command or one bus access: 32 bits, the only width the bus has (R57). -/
abbrev Word := BitVec 32

/-- One element of the byte stream (R49). -/
abbrev Byte := BitVec 8

end Sys2Proof
end

