-- ==== Sys2Proof/Syntax.lean ====
section
/-! DEFINITION. The commands: one constructor for each row of spec/opcode_table.json (R78, R80). -/

namespace Sys2Proof

/-- A command of the core (R76 to R80). No command has an operand (R77); `illegal` keeps the word it was read from,
because R79 gives that row every word whose bits [31:4] are not zero (log 17). -/
inductive Instr where
  /-- NOP, word 0x0000_0000 (R144). -/
  | nop
  /-- DECODE, word 0x0000_0001: all five stages in order (R146). -/
  | decode
  /-- EXTRACT, word 0x0000_0002: stage 1 (R96). -/
  | extract
  /-- CLASSIFY, word 0x0000_0003: stage 2 (R107). -/
  | classify
  /-- BITDEC, word 0x0000_0004: stage 3 (R118). -/
  | bitdec
  /-- FRAME, word 0x0000_0005: stage 4 (R125). -/
  | frame
  /-- ASSEMBLE, word 0x0000_0006: stage 5 (R138). -/
  | assemble
  /-- Reserved opcode 0x7 (R80). -/
  | reserved7
  /-- Reserved opcode 0x8 (R80). -/
  | reserved8
  /-- Reserved opcode 0x9 (R80). -/
  | reserved9
  /-- Reserved opcode 0xA (R80). -/
  | reservedA
  /-- Reserved opcode 0xB (R80). -/
  | reservedB
  /-- Reserved opcode 0xC (R80). -/
  | reservedC
  /-- Reserved opcode 0xD (R80). -/
  | reservedD
  /-- Reserved opcode 0xE (R80). -/
  | reservedE
  /-- RESET, word 0x0000_000F (R147). -/
  | reset
  /-- A word with bits [31:4] not all zero (R79). -/
  | illegal (word : Word)
  deriving DecidableEq, Repr

end Sys2Proof
end

