-- ==== Sys2Proof/WellFormed.lean ====
section
/-! DEFINITION. Which terms of `Instr` stand for a command word: every one but an `illegal` that carries a word some
other row of the opcode table matches (R79). -/

namespace Sys2Proof

/-- `illegal w` is a command only when ZERO, bits [31:4] of `w`, is not zero (R76, R79). -/
def wellFormed (i : Instr) : Bool :=
  match i with
  | .illegal w => w.extractLsb' 4 28 != 0#28
  | .nop | .decode | .extract | .classify | .bitdec | .frame | .assemble | .reserved7 | .reserved8 | .reserved9
  | .reservedA | .reservedB | .reservedC | .reservedD | .reservedE | .reset => true

/-- The same check as a proposition. -/
abbrev WellFormed (i : Instr) : Prop := wellFormed i = true

end Sys2Proof
end

