-- ==== Sys2Proof/Decode.lean ====
section
/-! DEFINITION. Command words to commands and back (R76 to R80). Decoding is total on every 32-bit word; only a request
that is not one 32-bit word is rejected. -/

namespace Sys2Proof

/-- OPCODE, bits [3:0] of a command word (R76). -/
def opcodeField (w : Word) : BitVec 4 := w.extractLsb' 0 4

/-- ZERO, bits [31:4] of a command word (R76). -/
def zeroField (w : Word) : BitVec 28 := w.extractLsb' 4 28

/-- `decodeCmd` of R79, with the reserved opcodes of R80 told apart as the opcode table tells them apart. -/
def decodeCmd (w : Word) : Instr :=
  if zeroField w ≠ 0#28 then .illegal w
  else match (opcodeField w).toNat with
    | 0x0 => .nop
    | 0x1 => .decode
    | 0x2 => .extract
    | 0x3 => .classify
    | 0x4 => .bitdec
    | 0x5 => .frame
    | 0x6 => .assemble
    | 0x7 => .reserved7
    | 0x8 => .reserved8
    | 0x9 => .reserved9
    | 0xA => .reservedA
    | 0xB => .reservedB
    | 0xC => .reservedC
    | 0xD => .reservedD
    | 0xE => .reservedE
    | 0xF => .reset
    | _ => .illegal w -- no four bits reach this line

/-- Why a request is not a command word. -/
inductive DecodeError where
  /-- The request has bits above the 32 of a command, the only format there is (R76). -/
  | notOneWord
  deriving DecidableEq, Repr

/-- Decoding of a number of `nbits` bits: one 32-bit word, or a rejection by name (R76). -/
def decodeBits (nbits w : Nat) : Except DecodeError Instr :=
  if nbits ≤ 32 ∧ w < 2 ^ 32 then .ok (decodeCmd (BitVec.ofNat 32 w)) else .error .notOneWord

/-- What the decoder reads from a row of spec/opcode_table.json whose bits are `w`. -/
def decodeTableWord (nbits w : Nat) : Option Instr :=
  match decodeBits nbits w with
  | .ok i => some i
  | .error _ => none

/-- The word of a well-formed command (R78, R80). -/
def encodeCmd (i : Instr) : Word :=
  match i with
  | .nop => 0x00000000#32
  | .decode => 0x00000001#32
  | .extract => 0x00000002#32
  | .classify => 0x00000003#32
  | .bitdec => 0x00000004#32
  | .frame => 0x00000005#32
  | .assemble => 0x00000006#32
  | .reserved7 => 0x00000007#32
  | .reserved8 => 0x00000008#32
  | .reserved9 => 0x00000009#32
  | .reservedA => 0x0000000A#32
  | .reservedB => 0x0000000B#32
  | .reservedC => 0x0000000C#32
  | .reservedD => 0x0000000D#32
  | .reservedE => 0x0000000E#32
  | .reset => 0x0000000F#32
  | .illegal w => w

/-- Whether acceptance of the command clears STATUS.IMAGE_VALID (R139, D34). -/
def clearsImageValid (i : Instr) : Bool :=
  match i with
  | .decode | .extract | .classify | .bitdec | .frame | .assemble => true
  | .nop | .reserved7 | .reserved8 | .reserved9 | .reservedA | .reservedB | .reservedC | .reservedD | .reservedE
  | .reset | .illegal _ => false

/-- Whether acceptance of the command clears STATUS.HIST_VALID (R139, D34). -/
def clearsHistValid (i : Instr) : Bool :=
  match i with
  | .decode | .classify => true
  | .nop | .extract | .bitdec | .frame | .assemble | .reserved7 | .reserved8 | .reserved9 | .reservedA | .reservedB
  | .reservedC | .reservedD | .reservedE | .reset | .illegal _ => false

end Sys2Proof
end

