-- ==== Sys2Proof/Config.lean ====
section
/-! DEFINITION. What an implementation fixes (R7) and the values the spec leaves free (R52, R73).
The free values and the OPEN parameters are constants with no body: nothing can be proved of their values. -/

namespace Sys2Proof

/-- The parameters the model takes as arguments (R7). They stand in the state as a field no step changes, so that a
statement about every state is a statement about every instantiation (log 1). -/
structure Params where
  /-- `SAMPLE_BITS`, W: the width of one signed sample, legal 2..32 (R7, D6). -/
  sampleBits : Nat
  /-- `MAX_SAMPLES`: the capacity of every per-element buffer, legal 2..2^24 (R7, D27). -/
  maxSamples : Nat
  /-- `SILENCE_THRESHOLD_RESET`: what SILENCE_THR resets to, legal 0..2^W - 1 (R7, R33). -/
  silenceThrReset : Word
  deriving DecidableEq, Repr

/-- The bounds R7 puts on the parameters. -/
abbrev Params.Legal (p : Params) : Prop :=
  2 ≤ p.sampleBits ∧ p.sampleBits ≤ 32 ∧ 2 ≤ p.maxSamples ∧ p.maxSamples ≤ 2 ^ 24 ∧
    p.silenceThrReset.toNat < 2 ^ p.sampleBits

/-- The seven buffers of the core (R44), each behind a window of the address map (R60). -/
inductive Window where
  | samp | xing | sym | bit | byte | hist | blk
  deriving DecidableEq, Repr

/-- The OPEN parameter MAX_SAMPLES before its bounds are applied (log 3). -/
opaque Config.maxSamplesSeed : Nat

/-- `MAX_SAMPLES` of the reset state: some number from 2 to 2^24, each of them possible (R7, log 3). -/
def Config.maxSamples : Nat := Config.maxSamplesSeed % (2 ^ 24 - 1) + 2

/-- The OPEN parameter SILENCE_THRESHOLD_RESET at the default sample width (R7, R33, log 4). -/
opaque Config.silenceThresholdReset : BitVec 16

/-- A field of a buffer element that nothing has written since hardware reset number `epoch` (R52): a free value, the
same at every read until the element is written (log 6). `field` numbers the words of one element (R60). -/
opaque Config.unwritten (epoch : Nat) (w : Window) (k field : Nat) : Nat

/-- What the `n`-th read of an address other than ID, CTRL and STATUS during BUSY returns (R73): a free value of its own
for each such read (log 7). -/
opaque Config.busyRead (n : Nat) : Word

/-- The parameters of the reset state: W at its default, the OPEN ones free (R7, log 2, 3, 4). -/
def Config.params : Params where
  sampleBits := 16
  maxSamples := Config.maxSamples
  silenceThrReset := Config.silenceThresholdReset.setWidth 32

end Sys2Proof
end

