-- ==== Sys2Proof/Machine/State.lean ====
section
/-! DEFINITION. Everything the spec gives the core to hold: the register block (R24), the seven buffers (R44), the pending
command (R53), the reset input (R162), and the model's own bookkeeping of what the host does next and what it has read. -/

namespace Sys2Proof.Machine

/-- STATUS, offset 0x00C, field by field (R29); every other bit of the register is reserved and reads 0 (R25). -/
structure Status where
  /-- Bit 0: a command is accepted and not yet completed. -/
  busy : Bool
  /-- Bit 1, W1C: a command has completed. -/
  done : Bool
  /-- Bit 2: the last completed command ended in a fatal error. -/
  err : Bool
  /-- Bit 3, W1C, sticky: a host write was ignored because BUSY = 1. -/
  werr : Bool
  /-- Bit 4: the header registers and BLK hold a complete ProgramImage. -/
  imageValid : Bool
  /-- Bit 5: HIST and EST_TOTAL hold the histogram of the last classification. -/
  histValid : Bool
  /-- Bits [11:8]: the error code of R148. -/
  errCode : BitVec 4
  /-- Bits [15:12]: the opcode field of the last command accepted. -/
  lastCmd : BitVec 4
  deriving DecidableEq, Repr

/-- FORMAT, offset 0x014: what the collaborator says of the source audio (R31). -/
structure Format where
  /-- Bits [7:0]. -/
  channels : BitVec 8
  /-- Bit 8. -/
  compressed : Bool
  deriving DecidableEq, Repr

/-- HDR_CKSUM, offset 0x07C: the header's checksum and verdict (R41, R131). -/
structure HdrCksum where
  /-- Bits [7:0]. -/
  computed : Byte
  /-- Bits [15:8]. -/
  stored : Byte
  /-- Bit 16. -/
  ok : Bool
  deriving DecidableEq, Repr

/-- The register block (R24), each register at the width of its fields. ID and CMD hold nothing: ID reads a constant (R26)
and CMD reads 0 (R28). -/
structure Regs where
  /-- CTRL.IRQ_EN, offset 0x004 bit 0 (R27). -/
  irqEn : Bool
  /-- STATUS, offset 0x00C (R29). -/
  status : Status
  /-- SAMPLE_RATE, offset 0x010 (R30). -/
  sampleRate : Word
  /-- FORMAT, offset 0x014 (R31). -/
  format : Format
  /-- SAMPLE_COUNT, offset 0x018 (R32). -/
  sampleCount : Word
  /-- SILENCE_THR, offset 0x01C: the low W bits; the rest are reserved (R33). -/
  silenceThr : Word
  /-- TRIM_START, offset 0x020 (R34). -/
  trimStart : Word
  /-- TRIM_LEN, offset 0x024 (R34). -/
  trimLen : Word
  /-- XING_COUNT, offset 0x028 (R35). -/
  xingCount : Word
  /-- EST_TOTAL, offset 0x02C (R36). -/
  estTotal : Word
  /-- HIST_COUNT, offset 0x030 (R36). -/
  histCount : Word
  /-- BAUD, offset 0x034 bits [1:0] (R37). -/
  baud : BitVec 2
  /-- SYM_COUNT, offset 0x038 (R38). -/
  symCount : Word
  /-- PREAMBLE_LEN, offset 0x03C (R39). -/
  preambleLen : Word
  /-- BIT_COUNT, offset 0x040 (R38). -/
  bitCount : Word
  /-- BYTE_COUNT, offset 0x044 (R38). -/
  byteCount : Word
  /-- ERR_INDEX, offset 0x048 (R40). -/
  errIndex : Word
  /-- ERR_FREQ, offset 0x04C (R40). -/
  errFreq : Word
  /-- ERR_CTX, offset 0x050 bits [15:0] (R40, R82). -/
  errCtx : BitVec 16
  /-- ERR_CTX_LEN, offset 0x054 bits [4:0] (R40). -/
  errCtxLen : BitVec 5
  /-- HDR_NAME_LO, offset 0x060: name bytes 0 to 3 (R41, R69). -/
  hdrNameLo : Word
  /-- HDR_NAME_HI, offset 0x064 bits [7:0]: name byte 4 (R41). -/
  hdrNameHi : Byte
  /-- HDR_ID, offset 0x068 bits [7:0] (R41). -/
  hdrId : Byte
  /-- HDR_TYPE, offset 0x06C bits [7:0] (R41). -/
  hdrType : Byte
  /-- HDR_LENGTH, offset 0x070 bits [15:0] (R41). -/
  hdrLength : BitVec 16
  /-- HDR_LOAD, offset 0x074 bits [15:0] (R41). -/
  hdrLoad : BitVec 16
  /-- HDR_GO, offset 0x078 bits [15:0] (R41). -/
  hdrGo : BitVec 16
  /-- HDR_CKSUM, offset 0x07C (R41). -/
  hdrCksum : HdrCksum
  /-- BLOCK_COUNT, offset 0x080 bits [8:0] (R42). -/
  blockCount : BitVec 9
  /-- BLOCK_FAIL_COUNT, offset 0x084 bits [8:0] (R42). -/
  blockFailCount : BitVec 9
  deriving DecidableEq, Repr

/-- A tone symbol (R47): High is bit 1, Low is bit 0. -/
inductive Tone where
  | low | high
  deriving DecidableEq, Repr

/-- A crossing record of XING (R46): it lies at `index + p / q` in the trimmed sequence (R90). -/
structure Crossing where
  index : Nat
  p : Nat
  q : Nat
  /-- DIR: rising (1) or falling (0). -/
  rising : Bool
  deriving DecidableEq, Repr

/-- An entry of HIST (R50). BUCKET is unbounded; only the register view saturates (R67). -/
structure HistEntry where
  bucket : Nat
  count : Nat
  deriving DecidableEq, Repr

/-- An entry of BLK (R51). -/
structure BlockEntry where
  offset : Nat
  length : Nat
  computed : Byte
  stored : Byte
  ok : Bool
  deriving DecidableEq, Repr

/-- A buffer (R44): the elements something has written since hardware reset, by index, lowest index first. An index that
is not listed has no value of its own: nothing has written it (R52, log 5, log 6). -/
abbrev Buf (α : Type) := List (Nat × α)

/-- The canonical form of a buffer: indices strictly rising. No entry can equal what an unlisted index holds, which is no
value at all (log 5). -/
abbrev Buf.Wf {α : Type} (b : Buf α) : Prop := b.Pairwise (fun x y => x.1 < y.1)

/-- The seven buffers (R44). -/
structure Memory where
  /-- Signed W-bit samples (R45). -/
  samp : Buf Int
  /-- Crossing records (R46). -/
  xing : Buf Crossing
  /-- Tone symbols (R47). -/
  sym : Buf Tone
  /-- Bits of the bitstream (R48). -/
  bit : Buf Bool
  /-- Bytes of the byte stream (R49). -/
  byte : Buf Byte
  /-- Histogram entries (R50). -/
  hist : Buf HistEntry
  /-- Block table (R51). -/
  blk : Buf BlockEntry
  deriving DecidableEq, Repr

/-- Every buffer is in its canonical form. -/
abbrev Memory.wf (m : Memory) : Prop :=
  Buf.Wf m.samp ∧ Buf.Wf m.xing ∧ Buf.Wf m.sym ∧ Buf.Wf m.bit ∧ Buf.Wf m.byte ∧ Buf.Wf m.hist ∧ Buf.Wf m.blk

/-- The buffers after hardware reset: no element has a value (R52, R162). -/
def Memory.empty : Memory :=
  { samp := [], xing := [], sym := [], bit := [], byte := [], hist := [], blk := [] }

/-- What can happen next at the core's boundary, and the engine's turns between (R23, R59, R162). -/
inductive Input where
  /-- The host performs `MemRead(addr, 4)` (R57). -/
  | read (addr : Word)
  /-- The host performs `MemWrite(addr, 4, value)` (R57). -/
  | write (addr : Word) (value : Word)
  /-- The engine gets its turn between two host accesses (R140). -/
  | engine
  /-- The reset input `rst` goes to this level (R162). -/
  | rst (level : Bool)
  deriving DecidableEq, Repr

/-- The whole state of the core. -/
structure State where
  /-- The parameters of R7; no step changes them (the model's own field, log 1). -/
  params : Params
  /-- The register block (R24). -/
  regs : Regs
  /-- The buffers (R44). -/
  mem : Memory
  /-- The command word accepted and not yet performed, none when BUSY = 0 (R53, R75, log 16). -/
  pending : Option Word
  /-- The level of the reset input `rst` (R162, log 13). -/
  rst : Bool
  /-- What the host and the engine do next, in order (R72; the model's own field, log 8). -/
  inputs : List Input
  /-- What the host's reads have returned, the latest first (the model's own field, log 10). -/
  replies : List Word
  /-- How many free values reads during BUSY have used (the model's own field, log 7). -/
  draws : Nat
  /-- How many hardware resets have made the buffers unspecified again (the model's own field, log 6). -/
  epoch : Nat
  deriving DecidableEq, Repr

/-- Why a step ends the run with a fault: no constructor, since the spec gives the core no such event. Every error it
describes is reported in STATUS and the machine goes on (R153, R154, log 18). -/
inductive Fault where
  deriving DecidableEq, Repr

/-- Why a step refuses. -/
inductive Refusal where
  /-- Raised by an arm of `exec` for a command that has no meaning yet; safe, since nothing can be proved of a run that
  stops there. No arm raises it. -/
  | notModelled (mnemonic : String)
  /-- Raised by a host access whose address is not a multiple of 4: such a request cannot be expressed at the port and has
  no meaning (R58); safe. -/
  | misaligned (addr : Word)
  deriving DecidableEq, Repr

/-- STATUS after reset: every field 0 (R163). -/
def Status.reset : Status :=
  { busy := false, done := false, err := false, werr := false, imageValid := false, histValid := false,
    errCode := 0, lastCmd := 0 }

/-- The reset column of R24: every register 0 but SILENCE_THR, which takes the parameter SILENCE_THRESHOLD_RESET (R33). -/
def Regs.reset (p : Params) : Regs where
  irqEn := false
  status := Status.reset
  sampleRate := 0
  format := { channels := 0, compressed := false }
  sampleCount := 0
  silenceThr := p.silenceThrReset
  trimStart := 0
  trimLen := 0
  xingCount := 0
  estTotal := 0
  histCount := 0
  baud := 0
  symCount := 0
  preambleLen := 0
  bitCount := 0
  byteCount := 0
  errIndex := 0
  errFreq := 0
  errCtx := 0
  errCtxLen := 0
  hdrNameLo := 0
  hdrNameHi := 0
  hdrId := 0
  hdrType := 0
  hdrLength := 0
  hdrLoad := 0
  hdrGo := 0
  hdrCksum := { computed := 0, stored := 0, ok := false }
  blockCount := 0
  blockFailCount := 0

/-- The core right after hardware reset, the reset input released and nothing waiting at its boundary (R162, R163). -/
def State.reset : State where
  params := Config.params
  regs := Regs.reset Config.params
  mem := Memory.empty
  pending := none
  rst := false
  inputs := []
  replies := []
  draws := 0
  epoch := 0

end Sys2Proof.Machine
end

