-- ==== Sys2Proof/Machine/Flags.lean ====
section
/-! DEFINITION. STATUS as the host sees it, the fatal errors and their codes, the verdict flags and the interrupt line. -/

namespace Sys2Proof.Machine

/-- One bit of a 32-bit register, at bit `k`. -/
def bitAt (b : Bool) (k : Nat) : Word := (BitVec.ofBool b).setWidth 32 <<< k

/-- STATUS as one 32-bit word (R24, R29): the fields at their places, every reserved bit 0 (R25). -/
def Status.toWord (t : Status) : Word :=
  bitAt t.busy 0 ||| bitAt t.done 1 ||| bitAt t.err 2 ||| bitAt t.werr 3 ||| bitAt t.imageValid 4 |||
    bitAt t.histValid 5 ||| (t.errCode.setWidth 32 <<< 8) ||| (t.lastCmd.setWidth 32 <<< 12)

/-- FORMAT as one 32-bit word (R24, R31). -/
def Format.toWord (f : Format) : Word := f.channels.setWidth 32 ||| bitAt f.compressed 8

/-- FORMAT from a host write: bits [7:0] and bit 8; the rest are ignored (R25, R31). -/
def Format.ofWord (v : Word) : Format := { channels := v.setWidth 8, compressed := v.getLsbD 8 }

/-- HDR_CKSUM as one 32-bit word (R24, R41). -/
def HdrCksum.toWord (h : HdrCksum) : Word :=
  h.computed.setWidth 32 ||| (h.stored.setWidth 32 <<< 8) ||| bitAt h.ok 16

/-- Word +8 of a BLK entry: OK [16], STORED [15:8], COMPUTED [7:0] (R60). -/
def BlockEntry.checkWord (b : BlockEntry) : Word :=
  b.computed.setWidth 32 ||| (b.stored.setWidth 32 <<< 8) ||| bitAt b.ok 16

/-- The W1C action of a host write of `v` to STATUS: bit 1 clears DONE, bit 3 clears WERR, nothing else changes
(R25, R29, R68). -/
def Status.w1c (t : Status) (v : Word) : Status :=
  { t with done := t.done && !v.getLsbD 1, werr := t.werr && !v.getLsbD 3 }

/-- A frequency estimate, the exact rational `num / den` in Hz (R15, R99). -/
structure Freq where
  num : Nat
  den : Nat
  deriving DecidableEq, Repr

/-- floor(f) (R106). -/
def Freq.floor (f : Freq) : Nat := f.num / f.den

/-- A fatal error with the information it carries (R148, R152): a value of its own, exact where the registers that report
it are not (R106, R145, log 27). -/
inductive FatalError where
  | unsupportedFormat
  | faulty1200Only
  | faultyNo1200
  /-- The estimate's index and the estimate itself (R106). -/
  | unidentifiedTone (j : Nat) (f : Freq)
  /-- The position in the symbol sequence and the symbols from there on, up to O of them (R116). -/
  | invalidSequence (position : Nat) (context : List Tone)
  /-- The index of the first interval of length 0 (R98). -/
  | zeroInterval (j : Nat)
  /-- 0 for the header, k + 1 for block k (R135). -/
  | truncated (index : Nat)
  /-- The sub-code of R150. -/
  | badConfig (subCode : Nat)
  | illegalCommand
  deriving DecidableEq, Repr

/-- The code of an error in STATUS.ERRCODE (R148); 0 is NONE. -/
def FatalError.code (e : FatalError) : BitVec 4 :=
  match e with
  | .unsupportedFormat => 1
  | .faulty1200Only => 2
  | .faultyNo1200 => 3
  | .unidentifiedTone _ _ => 4
  | .invalidSequence _ _ => 5
  | .zeroInterval _ => 6
  | .truncated _ => 7
  | .badConfig _ => 8
  | .illegalCommand => 9

/-- What the ERR_* registers say of an error; what R148 does not list for an error is 0. -/
structure Report where
  index : Word := 0
  freq : Word := 0
  ctx : BitVec 16 := 0
  ctxLen : BitVec 5 := 0
  deriving DecidableEq, Repr

/-- The STATUS of an accepted command `lastCmd` (R139): BUSY up, the last report's flags down, the validity flags cleared
where the command clears them. -/
def Status.accepted (t : Status) (lastCmd : BitVec 4) (clearsImage clearsHist : Bool) : Status :=
  { t with
    busy := true, done := false, err := false, errCode := 0, lastCmd := lastCmd,
    imageValid := t.imageValid && !clearsImage, histValid := t.histValid && !clearsHist }

/-- The STATUS of a completed command (R141). -/
def Status.completed (t : Status) (errorCode : Option (BitVec 4)) : Status :=
  match errorCode with
  | none => { t with busy := false, done := true }
  | some code => { t with busy := false, done := true, err := true, errCode := code }

/-- The interrupt output: CTRL.IRQ_EN and STATUS.DONE, at every moment (R55, R158). -/
def State.irq (s : State) : Bool := s.regs.irqEn && s.regs.status.done

/-- A checksum verdict (R129): pass when the computed and the stored byte are equal. -/
def verdict (computed stored : Byte) : Bool := computed == stored

end Sys2Proof.Machine
end

