-- ==== Sys2Proof/Machine/Operands.lean ====
section
/-! DEFINITION. What a host access names (R57 to R67): a register of R24, a word of a buffer element, or nothing. Also
the constants of the wire format (R7, R10) and how a word becomes a sample. -/

namespace Sys2Proof.Machine

/-- HEADER_OFFSET (R7, R10). -/
def headerOffset : Nat := 101
/-- HEADER_SIZE (R7). -/
def headerSize : Nat := 16
/-- FIRST_BLOCK_OFFSET (R7, R10). -/
def firstBlockOffset : Nat := 219
/-- BLOCK_STRIDE (R7, R10). -/
def blockStride : Nat := 257
/-- BLOCK_MAX (R7). -/
def blockMax : Nat := 256
/-- FRAME_BITS (R7). -/
def frameBits : Nat := 11
/-- BUCKET_HZ (R7). -/
def bucketHz : Nat := 100
/-- T_HIGH (R7). -/
def toneHigh : Nat := 1800
/-- T_MID (R7). -/
def toneMid : Nat := 900
/-- T_LOW (R7). -/
def toneLow : Nat := 450
/-- BLOCK_TABLE_SIZE (R7, R13). -/
def blockTableSize : Nat := 256
/-- What ID reads (R26). -/
def idConstant : Word := 0x43415301#32

/-- The registers of the register block (R24). -/
inductive Reg where
  | id | ctrl | cmd | status | sampleRate | format | sampleCount | silenceThr | trimStart | trimLen | xingCount
  | estTotal | histCount | baud | symCount | preambleLen | bitCount | byteCount | errIndex | errFreq | errCtx
  | errCtxLen | hdrNameLo | hdrNameHi | hdrId | hdrType | hdrLength | hdrLoad | hdrGo | hdrCksum | blockCount
  | blockFailCount
  deriving DecidableEq, Repr

/-- The offset column of R24. -/
def Reg.offset (r : Reg) : Nat :=
  match r with
  | .id => 0x000
  | .ctrl => 0x004
  | .cmd => 0x008
  | .status => 0x00C
  | .sampleRate => 0x010
  | .format => 0x014
  | .sampleCount => 0x018
  | .silenceThr => 0x01C
  | .trimStart => 0x020
  | .trimLen => 0x024
  | .xingCount => 0x028
  | .estTotal => 0x02C
  | .histCount => 0x030
  | .baud => 0x034
  | .symCount => 0x038
  | .preambleLen => 0x03C
  | .bitCount => 0x040
  | .byteCount => 0x044
  | .errIndex => 0x048
  | .errFreq => 0x04C
  | .errCtx => 0x050
  | .errCtxLen => 0x054
  | .hdrNameLo => 0x060
  | .hdrNameHi => 0x064
  | .hdrId => 0x068
  | .hdrType => 0x06C
  | .hdrLength => 0x070
  | .hdrLoad => 0x074
  | .hdrGo => 0x078
  | .hdrCksum => 0x07C
  | .blockCount => 0x080
  | .blockFailCount => 0x084

/-- Every register of R24, in the order of its table. -/
def allRegs : List Reg :=
  [.id, .ctrl, .cmd, .status, .sampleRate, .format, .sampleCount, .silenceThr, .trimStart, .trimLen, .xingCount] ++
    [.estTotal, .histCount, .baud, .symCount, .preambleLen, .bitCount, .byteCount, .errIndex, .errFreq, .errCtx] ++
    [.errCtxLen, .hdrNameLo, .hdrNameHi, .hdrId, .hdrType, .hdrLength, .hdrLoad, .hdrGo, .hdrCksum, .blockCount] ++
    [.blockFailCount]

/-- The register at an offset of the register block, if there is one (R24, R61). -/
def Reg.ofOffset (off : Nat) : Option Reg := allRegs.find? (fun r => r.offset == off)

/-- What an address names (R60): a register, word `field` of element `k` of a buffer, or nothing (R61). -/
inductive Target where
  | reg (r : Reg)
  | element (w : Window) (k field : Nat)
  | unmapped
  deriving DecidableEq, Repr

/-- The base column of R60. -/
def windowBase (w : Window) : Nat :=
  match w with
  | .samp => 0x10000000
  | .xing => 0x20000000
  | .sym => 0x30000000
  | .bit => 0x40000000
  | .byte => 0x50000000
  | .hist => 0x60000000
  | .blk => 0x70000000

/-- The stride column of R60, in bytes. -/
def windowStride (w : Window) : Nat :=
  match w with
  | .samp | .sym | .bit | .byte => 4
  | .xing | .hist | .blk => 16

/-- The capacity of a buffer (R44). -/
def windowCapacity (p : Params) (w : Window) : Nat :=
  match w with
  | .samp | .xing | .sym | .bit | .byte | .hist => p.maxSamples
  | .blk => blockTableSize

/-- The window whose 256 MiB region holds an address (R60). -/
def windowOf (a : Word) : Option Window :=
  match (a.extractLsb' 28 4).toNat with
  | 1 => some .samp
  | 2 => some .xing
  | 3 => some .sym
  | 4 => some .bit
  | 5 => some .byte
  | 6 => some .hist
  | 7 => some .blk
  | _ => none

/-- What a word address names (R60, R61). -/
def targetOf (p : Params) (a : Word) : Target :=
  if a.toNat < 0x1000 then
    match Reg.ofOffset a.toNat with
    | some r => .reg r
    | none => .unmapped
  else match windowOf a with
    | none => .unmapped
    | some w =>
      let k := (a.toNat - windowBase w) / windowStride w
      if k < windowCapacity p w then .element w k ((a.toNat - windowBase w) % windowStride w / 4) else .unmapped

/-- The address of word `field` of element `k` of a buffer (R60). -/
def elementAddr (w : Window) (k field : Nat) : Word := BitVec.ofNat 32 (windowBase w + windowStride w * k + 4 * field)

/-- The address of a register (R60). -/
def regAddr (r : Reg) : Word := BitVec.ofNat 32 r.offset

/-- Whether an address is a multiple of 4, the only addresses a request can carry (R58). -/
def aligned (a : Word) : Bool := a.extractLsb' 0 2 == 0#2

/-- The sample a word stands for: its low W bits, two's complement (R45, R64). -/
def sampleOfWord (sampleBits : Nat) (v : Word) : Int := (v.setWidth sampleBits).toInt

/-- A tone symbol from its bit (R47, R81). -/
def Tone.ofBit (b : Bool) : Tone := if b then .high else .low

/-- The bit of a tone symbol (R47, R81). -/
def Tone.toBit (t : Tone) : Bool := t == .high

/-- A register or element word that holds a natural number (R65, R67). -/
def natWord (n : Nat) : Word := BitVec.ofNat 32 n

end Sys2Proof.Machine
end

