-- ==== Sys2Proof/Machine/Ops.lean ====
section
/-! DEFINITION. The named operations over buffers and registers, and the life of a command: its acceptance (which also
clears the last error report, the only return there is, R155), its errors (R152) and its completion (R141). -/

namespace Sys2Proof.Machine

/-! ## Buffers -/

section
variable {α : Type}

/-- The entries of a buffer from index `k` on. -/
def Buf.seek (b : Buf α) (k : Nat) : Buf α := b.dropWhile (fun e => e.1 < k)

/-- What has been written to element `k`, if anything has been. -/
def Buf.read? (b : Buf α) (k : Nat) : Option α :=
  match Buf.seek b k with
  | [] => none
  | e :: _ => if e.1 = k then some e.2 else none

/-- Writes one element. -/
def Buf.write (b : Buf α) (k : Nat) (v : α) : Buf α :=
  b.takeWhile (fun e => e.1 < k) ++ (k, v) :: Buf.seek b (k + 1)

/-- Elements `k`, `k + 1`, … `k + n - 1` in order, an unwritten one as `unwritten` gives it (R52). -/
def Buf.readFrom (unwritten : Nat → α) (b : Buf α) (k n : Nat) : List α :=
  match n with
  | 0 => []
  | n + 1 =>
    let rest := Buf.seek b k
    ((Buf.read? rest k).getD (unwritten k)) :: Buf.readFrom unwritten rest (k + 1) n

/-- A sequence as buffer entries at indices `k`, `k + 1`, …. -/
def Buf.entriesFrom (k : Nat) (vs : List α) : Buf α :=
  match vs with
  | [] => []
  | v :: vs => (k, v) :: Buf.entriesFrom (k + 1) vs

/-- Writes a sequence to elements 0, 1, … in order; elements past its end keep what they hold (R62, R168). -/
def Buf.writePrefix (b : Buf α) (vs : List α) : Buf α := Buf.entriesFrom 0 vs ++ Buf.seek b vs.length

end

/-! ## Elements: what was written, or the free value of an element nothing has written since hardware reset (R52) -/

/-- Field `field` of unwritten element `k` of buffer `w` (R52). -/
def State.unwritten (s : State) (w : Window) (k field : Nat) : Nat := Config.unwritten s.epoch w k field

/-- An unwritten sample: any W-bit value (R45, R52). -/
def State.unwrittenSamp (s : State) (k : Nat) : Int :=
  sampleOfWord s.params.sampleBits (natWord (s.unwritten .samp k 0))

/-- An unwritten crossing record: any record (R52). -/
def State.unwrittenXing (s : State) (k : Nat) : Crossing :=
  { index := s.unwritten .xing k 0, p := s.unwritten .xing k 1, q := s.unwritten .xing k 2,
    rising := s.unwritten .xing k 3 % 2 == 1 }

/-- An unwritten symbol: either one (R52). -/
def State.unwrittenSym (s : State) (k : Nat) : Tone := Tone.ofBit (s.unwritten .sym k 0 % 2 == 1)

/-- An unwritten bit: either one (R52). -/
def State.unwrittenBit (s : State) (k : Nat) : Bool := s.unwritten .bit k 0 % 2 == 1

/-- An unwritten byte: any byte (R52). -/
def State.unwrittenByte (s : State) (k : Nat) : Byte := BitVec.ofNat 8 (s.unwritten .byte k 0)

/-- An unwritten histogram entry: any entry (R52). -/
def State.unwrittenHist (s : State) (k : Nat) : HistEntry :=
  { bucket := s.unwritten .hist k 0, count := s.unwritten .hist k 1 }

/-- An unwritten block entry: any entry (R52). -/
def State.unwrittenBlk (s : State) (k : Nat) : BlockEntry :=
  { offset := s.unwritten .blk k 0, length := s.unwritten .blk k 1,
    computed := BitVec.ofNat 8 (s.unwritten .blk k 2), stored := BitVec.ofNat 8 (s.unwritten .blk k 3),
    ok := s.unwritten .blk k 4 % 2 == 1 }

/-- SAMP[k] (R45). -/
def State.samp (s : State) (k : Nat) : Int := (Buf.read? s.mem.samp k).getD (s.unwrittenSamp k)
/-- XING[k] (R46). -/
def State.xing (s : State) (k : Nat) : Crossing := (Buf.read? s.mem.xing k).getD (s.unwrittenXing k)
/-- SYM[k] (R47). -/
def State.sym (s : State) (k : Nat) : Tone := (Buf.read? s.mem.sym k).getD (s.unwrittenSym k)
/-- BIT[k] (R48). -/
def State.bit (s : State) (k : Nat) : Bool := (Buf.read? s.mem.bit k).getD (s.unwrittenBit k)
/-- BYTE[k] (R49). -/
def State.byte (s : State) (k : Nat) : Byte := (Buf.read? s.mem.byte k).getD (s.unwrittenByte k)
/-- HIST[k] (R50). -/
def State.hist (s : State) (k : Nat) : HistEntry := (Buf.read? s.mem.hist k).getD (s.unwrittenHist k)
/-- BLK[k] (R51). -/
def State.blk (s : State) (k : Nat) : BlockEntry := (Buf.read? s.mem.blk k).getD (s.unwrittenBlk k)

/-- SAMP[0 .. n) (R16). -/
def State.samples (s : State) (n : Nat) : List Int := Buf.readFrom s.unwrittenSamp s.mem.samp 0 n
/-- XING[0 .. n) (R16). -/
def State.xings (s : State) (n : Nat) : List Crossing := Buf.readFrom s.unwrittenXing s.mem.xing 0 n
/-- SYM[0 .. n) (R16). -/
def State.syms (s : State) (n : Nat) : List Tone := Buf.readFrom s.unwrittenSym s.mem.sym 0 n
/-- BIT[0 .. n) (R16). -/
def State.bits (s : State) (n : Nat) : List Bool := Buf.readFrom s.unwrittenBit s.mem.bit 0 n
/-- BYTE[0 .. n) (R16). -/
def State.bytes (s : State) (n : Nat) : List Byte := Buf.readFrom s.unwrittenByte s.mem.byte 0 n

/-! ## Registers and buffers as wholes -/

/-- The state with another register block. -/
def State.setRegs (s : State) (r : Regs) : State := { s with regs := r }

/-- The state with other buffers. -/
def State.setMem (s : State) (m : Memory) : State := { s with mem := m }

/-- The state with another STATUS. -/
def State.setStatus (s : State) (t : Status) : State := s.setRegs { s.regs with status := t }

/-! ## The life of a command -/

/-- Acceptance of command word `v` (R139): BUSY up, the last report cleared, the validity flags the command clears
cleared, and the command latched (R75). -/
def State.accept (s : State) (v : Word) : State :=
  { s with
    regs := { s.regs with
      status := s.regs.status.accepted (opcodeField v) (clearsImageValid (decodeCmd v)) (clearsHistValid (decodeCmd v))
      errIndex := 0, errFreq := 0, errCtx := 0, errCtxLen := 0 }
    pending := some v }

/-- How a command's pseudocode ends: at its last statement, or at a `raise` (R152). The state is the one that the writes
made so far have left. -/
inductive Stage where
  | done (s : State)
  | raised (s : State) (e : FatalError)

/-- The next stage of a command, which a `raise` in the one before keeps from running (R152). -/
def Stage.andThen (x : Stage) (f : State → Stage) : Stage :=
  match x with
  | .done s => f s
  | .raised s e => .raised s e

/-- A context packed into ERR_CTX: symbol `m` in bit `m`, 1 for High (R82). -/
def packContext (ctx : List Tone) : BitVec 16 :=
  match ctx with
  | [] => 0
  | t :: rest => (packContext rest <<< 1) ||| (BitVec.ofBool t.toBit).setWidth 16

/-- What the ERR_* registers report of an error (R148): its index, position or sub-code, floor(f) of its frequency
(R106), its context packed (R116). -/
def FatalError.report (e : FatalError) : Report :=
  match e with
  | .unidentifiedTone j f => { index := natWord j, freq := natWord f.floor }
  | .invalidSequence p ctx => { index := natWord p, ctx := packContext ctx, ctxLen := BitVec.ofNat 5 ctx.length }
  | .zeroInterval j => { index := natWord j }
  | .truncated k => { index := natWord k }
  | .badConfig n => { index := natWord n }
  | .unsupportedFormat | .faulty1200Only | .faultyNo1200 | .illegalCommand => {}

/-- What a raised error writes to the ERR_* registers (R148, R152). -/
def State.report (s : State) (r : Report) : State :=
  s.setRegs { s.regs with errIndex := r.index, errFreq := r.freq, errCtx := r.ctx, errCtxLen := r.ctxLen }

/-- Completion (R141): the command is no longer pending, BUSY falls and DONE rises; an error is entered in STATUS and the
ERR_* registers, and nothing else changes: no mode, no mask, no transfer of control (R154). -/
def Stage.complete (x : Stage) : State :=
  match x with
  | .done s => { s.setStatus (s.regs.status.completed none) with pending := none }
  | .raised s e => { (s.report e.report).setStatus (s.regs.status.completed (some e.code)) with pending := none }

/-- The engine's step for a command: its whole rule, then its completion (R140). -/
def Stage.finish (x : Stage) : Host.Outcome State Fault Refusal := .next x.complete

/-- Hardware reset (R162): the pending command is dropped, every register takes its reset value, and every buffer element
is unspecified again, by another free value than before (log 6). -/
def State.hardwareReset (s : State) : State :=
  { s with regs := Regs.reset s.params, mem := Memory.empty, pending := none, epoch := s.epoch + 1 }

end Sys2Proof.Machine
end

