-- ==== Sys2Proof/Machine/Bus.lean ====
section
/-! DEFINITION. The host's accesses (R57 to R73, R166): what a word read returns, what a word write changes, what both do
while a command is pending, and the reset input (R162). -/

namespace Sys2Proof.Machine

/-- A bit as a register word. -/
def boolWord (b : Bool) : Word := bitAt b 0

/-- What a read of a register returns (R24, R26, R28). -/
def readReg (r : Reg) (s : State) : Word :=
  match r with
  | .id => idConstant
  | .ctrl => boolWord s.regs.irqEn
  | .cmd => 0
  | .status => s.regs.status.toWord
  | .sampleRate => s.regs.sampleRate
  | .format => s.regs.format.toWord
  | .sampleCount => s.regs.sampleCount
  | .silenceThr => s.regs.silenceThr
  | .trimStart => s.regs.trimStart
  | .trimLen => s.regs.trimLen
  | .xingCount => s.regs.xingCount
  | .estTotal => s.regs.estTotal
  | .histCount => s.regs.histCount
  | .baud => s.regs.baud.setWidth 32
  | .symCount => s.regs.symCount
  | .preambleLen => s.regs.preambleLen
  | .bitCount => s.regs.bitCount
  | .byteCount => s.regs.byteCount
  | .errIndex => s.regs.errIndex
  | .errFreq => s.regs.errFreq
  | .errCtx => s.regs.errCtx.setWidth 32
  | .errCtxLen => s.regs.errCtxLen.setWidth 32
  | .hdrNameLo => s.regs.hdrNameLo
  | .hdrNameHi => s.regs.hdrNameHi.setWidth 32
  | .hdrId => s.regs.hdrId.setWidth 32
  | .hdrType => s.regs.hdrType.setWidth 32
  | .hdrLength => s.regs.hdrLength.setWidth 32
  | .hdrLoad => s.regs.hdrLoad.setWidth 32
  | .hdrGo => s.regs.hdrGo.setWidth 32
  | .hdrCksum => s.regs.hdrCksum.toWord
  | .blockCount => s.regs.blockCount.setWidth 32
  | .blockFailCount => s.regs.blockFailCount.setWidth 32

/-- A sample on the bus: sign-extended to 32 bits (R64). -/
def sampleWord (v : Int) : Word := BitVec.ofInt 32 v

/-- Word `field` of a crossing record (R60, R65). -/
def crossingWord (c : Crossing) (field : Nat) : Word :=
  match field with
  | 0 => natWord c.index
  | 1 => natWord c.p
  | 2 => natWord c.q
  | _ => boolWord c.rising

/-- BUCKET as the register view shows it: saturated at 2^64 - 1 (R67). -/
def bucketView (e : HistEntry) : BitVec 64 := BitVec.ofNat 64 (min e.bucket (2 ^ 64 - 1))

/-- Word `field` of a histogram entry (R60, R67). -/
def histWord (e : HistEntry) (field : Nat) : Word :=
  match field with
  | 0 => (bucketView e).extractLsb' 0 32
  | 1 => (bucketView e).extractLsb' 32 32
  | 2 => natWord e.count
  | _ => 0

/-- Word `field` of a block entry (R60). -/
def blockWord (b : BlockEntry) (field : Nat) : Word :=
  match field with
  | 0 => natWord b.offset
  | 1 => natWord b.length
  | 2 => b.checkWord
  | _ => 0

/-- Word `field` of element `k` of a buffer, as a read returns it (R60, R62, R64 to R67). -/
def readElement (w : Window) (k field : Nat) (s : State) : Word :=
  match w with
  | .samp => sampleWord (s.samp k)
  | .xing => crossingWord (s.xing k) field
  | .sym => boolWord (s.sym k).toBit
  | .bit => boolWord (s.bit k)
  | .byte => (s.byte k).setWidth 32
  | .hist => histWord (s.hist k) field
  | .blk => blockWord (s.blk k) field

/-- What a word read returns while no command is pending: no read has a side effect (R68), an unmapped address reads 0
(R61). -/
def readWord (a : Word) (s : State) : Word :=
  match targetOf s.params a with
  | .reg r => readReg r s
  | .element w k field => readElement w k field s
  | .unmapped => 0

/-- Whether a target can be read while BUSY = 1 (R73). -/
def readableBusy (t : Target) : Bool :=
  match t with
  | .reg .id | .reg .ctrl | .reg .status => true
  | .reg _ | .element _ _ _ | .unmapped => false

/-- The state after a read has returned `v`. -/
def State.reply (s : State) (v : Word) : State := { s with replies := v :: s.replies }

/-- `MemRead(a, 4)` of an aligned address: 0 while `rst` is asserted (R162); while BUSY = 1 a free value for every address
but ID, CTRL and STATUS (R73, log 7). -/
def hostRead (a : Word) (s : State) : State :=
  if s.rst then s.reply 0
  else if s.regs.status.busy && !readableBusy (targetOf s.params a) then
    { s.reply (Config.busyRead s.draws) with draws := s.draws + 1 }
  else s.reply (readWord a s)

/-- A write to a register that takes effect: its RW and W1C fields only (R24, R25). -/
def writeReg (r : Reg) (v : Word) (s : State) : State :=
  match r with
  | .ctrl => s.setRegs { s.regs with irqEn := v.getLsbD 0 }
  | .cmd => s.accept v
  | .status => s.setStatus (s.regs.status.w1c v)
  | .sampleRate => s.setRegs { s.regs with sampleRate := v }
  | .format => s.setRegs { s.regs with format := Format.ofWord v }
  | .sampleCount => s.setRegs { s.regs with sampleCount := v }
  | .silenceThr => s.setRegs { s.regs with silenceThr := (v.setWidth s.params.sampleBits).setWidth 32 }
  | .baud => s.setRegs { s.regs with baud := v.setWidth 2 }
  | .symCount => s.setRegs { s.regs with symCount := v }
  | .bitCount => s.setRegs { s.regs with bitCount := v }
  | .byteCount => s.setRegs { s.regs with byteCount := v }
  | .id | .trimStart | .trimLen | .xingCount | .estTotal | .histCount | .preambleLen | .errIndex | .errFreq | .errCtx
  | .errCtxLen | .hdrNameLo | .hdrNameHi | .hdrId | .hdrType | .hdrLength | .hdrLoad | .hdrGo | .hdrCksum
  | .blockCount | .blockFailCount => s

/-- A write to a buffer element: SAMP keeps the low W bits (R64), SYM and BIT bit 0, BYTE bits [7:0] (R66); XING, HIST
and BLK ignore it (R65, R67). -/
def writeElement (w : Window) (k : Nat) (v : Word) (s : State) : State :=
  match w with
  | .samp => s.setMem { s.mem with samp := Buf.write s.mem.samp k (sampleOfWord s.params.sampleBits v) }
  | .sym => s.setMem { s.mem with sym := Buf.write s.mem.sym k (Tone.ofBit (v.getLsbD 0)) }
  | .bit => s.setMem { s.mem with bit := Buf.write s.mem.bit k (v.getLsbD 0) }
  | .byte => s.setMem { s.mem with byte := Buf.write s.mem.byte k (v.setWidth 8) }
  | .xing | .hist | .blk => s

/-- A write while BUSY = 0 (R61, R68): a command is accepted only here (R139). -/
def writeIdle (t : Target) (v : Word) (s : State) : State :=
  match t with
  | .reg r => writeReg r v s
  | .element w k _ => writeElement w k v s
  | .unmapped => s

/-- A write while BUSY = 1 (R166): CTRL and the W1C fields of STATUS take it; every other write sets WERR and does nothing
else (log 12). -/
def writeBusy (t : Target) (v : Word) (s : State) : State :=
  match t with
  | .reg .ctrl => writeReg .ctrl v s
  | .reg .status => writeReg .status v s
  | .reg _ | .element _ _ _ | .unmapped => s.setStatus { s.regs.status with werr := true }

/-- `MemWrite(a, 4, v)` of an aligned address; it has no effect while `rst` is asserted (R162). -/
def hostWrite (a v : Word) (s : State) : State :=
  if s.rst then s
  else if s.regs.status.busy then writeBusy (targetOf s.params a) v s
  else writeIdle (targetOf s.params a) v s

/-- The reset input goes to a level (R162): asserting it resets the core, whatever it is doing. -/
def resetInput (level : Bool) (s : State) : State :=
  if level then { s.hardwareReset with rst := true } else { s with rst := false }

/-- The command the engine would perform if it got its turn: none when nothing is pending (R140) or while `rst` is
asserted (R162). -/
def State.ready (s : State) : Option Instr := if s.rst then none else s.pending.map decodeCmd

/-- The queue that gives the engine the next move: an empty one does already (log 8). -/
def engineFirst (inputs : List Input) : List Input :=
  match inputs with
  | [] => []
  | i :: rest => .engine :: i :: rest

/-- The state in which command word `v` has just been accepted and the engine moves next. -/
def State.issued (s : State) (v : Word) : State := { s.accept v with rst := false, inputs := engineFirst s.inputs }

end Sys2Proof.Machine
end

