-- ==== Sys2Proof/Machine/ToneClassifier.lean ====
section
/-! DEFINITION. Stage 2, the tone classifier (R97 to R107): exact frequency estimates, their histogram, the baud rate,
the tone symbols, and CLASSIFY. -/

namespace Sys2Proof.Machine

/-- N of R99: the distance of two crossings times Q1 × Q2. The rule gives N ≥ 0 for the records EXTRACT makes; for other
records, which XING cannot hold (R46), a negative N counts as 0 (log 15). -/
def intervalNum (c1 c2 : Crossing) : Nat :=
  (((c2.index : Int) - c1.index) * c1.q * c2.q + c2.p * c1.q - c1.p * c2.q).toNat

/-- D of R99. -/
def intervalDen (c1 c2 : Crossing) : Nat := c1.q * c2.q

/-- The estimate of two adjacent crossings (R98, R99): R × D / (2 × N). -/
def estimate (sampleRate : Nat) (c1 c2 : Crossing) : Freq :=
  { num := sampleRate * intervalDen c1 c2, den := 2 * intervalNum c1 c2 }

/-- The result of `estimates` (R98). -/
inductive Estimates where
  | zeroInterval (j : Nat)
  | ok (es : List Freq)
  deriving DecidableEq, Repr

/-- The index of the first adjacent pair at distance 0, counting from `j` (R98). -/
def firstZeroInterval (j : Nat) (cs : List Crossing) : Option Nat :=
  match cs with
  | c1 :: c2 :: rest => if intervalNum c1 c2 = 0 then some j else firstZeroInterval (j + 1) (c2 :: rest)
  | [_] => none
  | [] => none

/-- One estimate for each adjacent pair, in order (R98, R100). -/
def estimateList (sampleRate : Nat) (cs : List Crossing) : List Freq :=
  match cs with
  | c1 :: c2 :: rest => estimate sampleRate c1 c2 :: estimateList sampleRate (c2 :: rest)
  | [_] => []
  | [] => []

/-- `estimates` of R98. -/
def estimates (sampleRate : Nat) (cs : List Crossing) : Estimates :=
  match firstZeroInterval 0 cs with
  | some j => .zeroInterval j
  | none => .ok (estimateList sampleRate cs)

/-- `bucket` of R101: the nearest multiple of 100 Hz, a tie going to the even quotient. -/
def bucket (f : Freq) : Nat :=
  let den := bucketHz * f.den
  let q := f.num / den
  let r := f.num % den
  bucketHz * (if 2 * r > den then q + 1 else if 2 * r < den then q else if q % 2 = 0 then q else q + 1)

/-- Counts one more estimate in bucket `b`; a new bucket goes to the end (R102). -/
def countBucket (b : Nat) (h : List HistEntry) : List HistEntry :=
  match h with
  | [] => [{ bucket := b, count := 1 }]
  | e :: rest => if e.bucket = b then { e with count := e.count + 1 } :: rest else e :: countBucket b rest

/-- `histogram` of R102. -/
def histogram (es : List Freq) : List HistEntry := es.foldl (fun h f => countBucket (bucket f) h) []

/-- Whether the histogram has an entry for a bucket (R103). -/
def present (h : List HistEntry) (b : Nat) : Bool := h.any (fun e => e.bucket == b)

/-- near1200 of R103. -/
def near1200 (h : List HistEntry) : Bool := present h 1100 || present h 1200 || present h 1300
/-- near600 of R103. -/
def near600 (h : List HistEntry) : Bool := present h 500 || present h 600 || present h 700
/-- near2400 of R103. -/
def near2400 (h : List HistEntry) : Bool := present h 2300 || present h 2400 || present h 2500

/-- The two baud rates (R11). -/
inductive Baud where
  | baud300 | baud1200
  deriving DecidableEq, Repr

/-- The code of a baud rate in BAUD (R37, R81). -/
def Baud.code (b : Baud) : BitVec 2 :=
  match b with
  | .baud300 => 1
  | .baud1200 => 2

/-- The baud rate a BAUD code stands for; 0 and 3 stand for none (R37, R108). -/
def Baud.ofCode (c : BitVec 2) : Option Baud :=
  if c = 1 then some .baud300 else if c = 2 then some .baud1200 else none

/-- The result of `inferBaud` (R104). -/
inductive BaudVerdict where
  | baud (b : Baud)
  | only1200
  | no1200
  deriving DecidableEq, Repr

/-- `inferBaud` of R104, its lines in their order. -/
def inferBaud (h : List HistEntry) : BaudVerdict :=
  if near1200 h && near600 h then .baud .baud1200
  else if near1200 h && near2400 h then .baud .baud300
  else if near1200 h then .only1200
  else .no1200

/-- f > hz, by cross-multiplication (R99). -/
def Freq.above (f : Freq) (hz : Nat) : Bool := f.num > hz * f.den

/-- `mapSymbol` of R105, on the exact estimate; none is `Unidentified`. -/
def mapSymbol (b : Baud) (f : Freq) : Option Tone :=
  if f.above toneHigh then some .high
  else if f.above toneMid then some (if b = .baud1200 then .high else .low)
  else if f.above toneLow then some .low
  else none

/-- The symbols mapped before the first estimate that maps to none, counting estimates from `j`, and that estimate's
index and exact value if there is one: what the error value of R106 carries. -/
def mapSymbols (b : Baud) (j : Nat) (es : List Freq) : List Tone × Option (Nat × Freq) :=
  match es with
  | [] => ([], none)
  | f :: rest =>
    match mapSymbol b f with
    | none => ([], some (j, f))
    | some t =>
      let r := mapSymbols b (j + 1) rest
      (t :: r.1, r.2)

/-- EST_TOTAL, HIST_COUNT, HIST_VALID, BAUD and SYM_COUNT cleared: how CLASSIFY leaves them when it stops before the
histogram (R107). -/
def State.clearClassified (s : State) : State :=
  s.setRegs { s.regs with
    estTotal := 0, histCount := 0, status := { s.regs.status with histValid := false }, baud := 0, symCount := 0 }

/-- HIST, HIST_COUNT, EST_TOTAL and HIST_VALID once the histogram is built (R107). -/
def State.setHistogram (s : State) (total : Nat) (h : List HistEntry) : State :=
  (s.setMem { s.mem with hist := Buf.writePrefix s.mem.hist h }).setRegs { s.regs with
    histCount := natWord h.length, estTotal := natWord total, status := { s.regs.status with histValid := true } }

/-- BAUD (R107). -/
def State.setBaud (s : State) (code : BitVec 2) : State := s.setRegs { s.regs with baud := code }

/-- SYM_COUNT (R107). -/
def State.setSymCount (s : State) (n : Nat) : State := s.setRegs { s.regs with symCount := natWord n }

/-- The mapping part of CLASSIFY (R106, R107), with the baud rate inferred. -/
def mapStage (b : Baud) (es : List Freq) (s : State) : Stage :=
  let m := mapSymbols b 0 es
  let s' := s.setMem { s.mem with sym := Buf.writePrefix s.mem.sym m.1 }
  match m.2 with
  | some (j, f) =>
    .raised (s'.setSymCount 0) (.unidentifiedTone j f)
  | none => .done (s'.setSymCount es.length)

/-- CLASSIFY once the estimates are known (R107): the histogram, the baud rate, the symbols. -/
def classifyEstimates (es : List Freq) (s : State) : Stage :=
  let h := histogram es
  let s' := s.setHistogram es.length h
  match inferBaud h with
  | .only1200 => .raised ((s'.setBaud 0).setSymCount 0) .faulty1200Only
  | .no1200 => .raised ((s'.setBaud 0).setSymCount 0) .faultyNo1200
  | .baud b => mapStage b es (s'.setBaud b.code)

/-- The body of CLASSIFY (R107). -/
def classifyBody (s : State) : Stage :=
  if s.regs.sampleRate = 0 then .raised s.clearClassified (.badConfig 2)
  else match estimates s.regs.sampleRate.toNat (s.xings s.regs.xingCount.toNat) with
    | .zeroInterval j => .raised s.clearClassified (.zeroInterval j)
    | .ok es => classifyEstimates es s

/-- CLASSIFY (R107). -/
def execClassify (s : State) : Host.Outcome State Fault Refusal := (classifyBody s).finish

end Sys2Proof.Machine
end

