-- ==== Sys2Proof/Machine/BitDecoder.lean ====
section
/-! DEFINITION. Stage 3, the bit decoder (R108 to R118): the pilot-skipping state machine and BITDEC. -/

namespace Sys2Proof.Machine

/-- Z of R112: how many Low symbols a 0-bit is. -/
def zeroLen (b : Baud) : Nat :=
  match b with
  | .baud300 => 8
  | .baud1200 => 1

/-- O of R112: how many High symbols a 1-bit is. -/
def oneLen (b : Baud) : Nat :=
  match b with
  | .baud300 => 16
  | .baud1200 => 2

/-- Where the Preamble state exits: the number of leading High symbols (R109). -/
def preambleLength (s : List Tone) : Nat := (s.takeWhile (fun t => t == .high)).length

/-- The Decode state (R110 to R112) at position `pos` with `rest` the symbols from there on: the bits it emits, and where
and on what it fails if it does. Every pass consumes at least one symbol, so `fuel` above the number of symbols is never
used up. -/
def decodeTokens (z o fuel pos : Nat) (rest : List Tone) : List Bool × Option (Nat × List Tone) :=
  match fuel with
  | 0 => ([], none)
  | fuel + 1 =>
    if rest.take z = List.replicate z .low then
      let r := decodeTokens z o fuel (pos + z) (rest.drop z)
      (false :: r.1, r.2)
    else if rest.take o = List.replicate o .high then
      let r := decodeTokens z o fuel (pos + o) (rest.drop o)
      (true :: r.1, r.2)
    else if rest.length < o ∧ ∀ t ∈ rest, t = Tone.high then ([], none)
    else ([], some (pos, rest.take o))

/-- `bitDecode` of R112 without the preamble length: the bits emitted, and the failing position and context if the
sequence is malformed (R116). -/
def bitDecode (b : Baud) (s : List Tone) : List Bool × Option (Nat × List Tone) :=
  decodeTokens (zeroLen b) (oneLen b) (s.length + 1) (preambleLength s) (s.drop (preambleLength s))

/-- PREAMBLE_LEN and BIT_COUNT (R118). -/
def State.setDecoded (s : State) (preamble bits : Nat) : State :=
  s.setRegs { s.regs with preambleLen := natWord preamble, bitCount := natWord bits }

/-- BITDEC with its inputs checked (R118): the bits emitted go to BIT, whether the sequence is well formed or not. -/
def decodeStage (b : Baud) (syms : List Tone) (s : State) : Stage :=
  let d := bitDecode b syms
  let s' := s.setMem { s.mem with bit := Buf.writePrefix s.mem.bit d.1 }
  match d.2 with
  | none => .done (s'.setDecoded (preambleLength syms) d.1.length)
  | some (p, ctx) =>
    .raised (s'.setDecoded (preambleLength syms) 0) (.invalidSequence p ctx)

/-- The body of BITDEC (R118); BAUD is checked before SYM_COUNT (R108). -/
def bitdecBody (s : State) : Stage :=
  match Baud.ofCode s.regs.baud with
  | none => .raised (s.setDecoded 0 0) (.badConfig 3)
  | some b =>
    if s.regs.symCount.toNat > s.params.maxSamples then .raised (s.setDecoded 0 0) (.badConfig 4)
    else decodeStage b (s.syms s.regs.symCount.toNat) s

/-- BITDEC (R118). -/
def execBitdec (s : State) : Host.Outcome State Fault Refusal := (bitdecBody s).finish

end Sys2Proof.Machine
end

