-- ==== Sys2Proof/Machine/BlockAssembler.lean ====
section
/-! DEFINITION. Stage 5, the block assembler (R126 to R138): the checksum, the header record, the data blocks, and
ASSEMBLE. -/

namespace Sys2Proof.Machine

/-- One step of the checksum (R127): the bitwise complement of `b - acc`, wrapping at 8 bits. -/
def checksumStep (acc b : Byte) : Byte := ~~~(b - acc)

/-- `checksum` of R127. -/
def checksum (bs : List Byte) : Byte := bs.foldl checksumStep 0

/-- The slice `y[a .. a + n)` (R16). -/
def slice (y : List Byte) (a n : Nat) : List Byte := (y.drop a).take n

/-- `y[k]` (R16); the assembler asks only for bytes that are there. -/
def byteAt (y : List Byte) (k : Nat) : Byte := y.getD k 0

/-- A 2-byte field, little-endian (R70, R130). -/
def littleEndian (y : List Byte) (k : Nat) : BitVec 16 := byteAt y (k + 1) ++ byteAt y k

/-- The header record (R130) with its checksum, the byte stored for it and the verdict (R131). -/
structure Header where
  /-- Five raw bytes (R41). -/
  name : List Byte
  id : Byte
  fileType : Byte
  length : BitVec 16
  load : BitVec 16
  go : BitVec 16
  cksum : HdrCksum
  deriving DecidableEq, Repr

/-- The header record of a 16-byte window and the byte after it (R130, R131). Bytes 13 to 15 enter only the checksum. -/
def parseHeader (h : List Byte) (stored : Byte) : Header where
  name := slice h 0 5
  id := byteAt h 5
  fileType := byteAt h 6
  length := littleEndian h 7
  load := littleEndian h 9
  go := littleEndian h 11
  cksum := { computed := checksum h, stored := stored, ok := verdict (checksum h) stored }

/-- The record of the block whose payload is the `len` bytes at `off` (R129, R136). -/
def blockRecord (y : List Byte) (off len : Nat) : BlockEntry where
  offset := off
  length := len
  computed := checksum (slice y off len)
  stored := byteAt y (off + len)
  ok := verdict (checksum (slice y off len)) (byteAt y (off + len))

/-- The block loop of R133 and R136, at block `k` with its payload at `off` and `remaining` bytes to go: the records it
makes, and the index of TRUNCATED if bytes are missing (R135). Every pass takes at least one byte, so `fuel` of at least
`remaining` is never used up. -/
def assembleBlocks (y : List Byte) (fuel remaining off k : Nat) : List BlockEntry × Option Nat :=
  match fuel with
  | 0 => ([], none)
  | fuel + 1 =>
    if remaining = 0 then ([], none)
    else
      let len := min blockMax remaining
      if off + len ≥ y.length then ([], some (k + 1))
      else
        let r := assembleBlocks y fuel (remaining - len) (off + blockStride) (k + 1)
        (blockRecord y off len :: r.1, r.2)

/-- The result of `assemble` (R136), with the records made before a truncation, which stay in BLK (R138). -/
inductive Assembled where
  | truncated (index : Nat) (blocks : List BlockEntry)
  | image (hdr : Header) (blocks : List BlockEntry)
  deriving DecidableEq, Repr

/-- `assemble` of R136. -/
def assemble (y : List Byte) : Assembled :=
  if y.length < headerOffset + headerSize + 1 then .truncated 0 []
  else
    let hdr := parseHeader (slice y headerOffset headerSize) (byteAt y (headerOffset + headerSize))
    let r := assembleBlocks y hdr.length.toNat hdr.length.toNat firstBlockOffset 0
    match r.2 with
    | some e => .truncated e r.1
    | none => .image hdr r.1

/-- `clearImage` of R138. -/
def State.clearImage (s : State) : State :=
  s.setRegs { s.regs with
    hdrNameLo := 0, hdrNameHi := 0, hdrId := 0, hdrType := 0, hdrLength := 0, hdrLoad := 0, hdrGo := 0,
    hdrCksum := { computed := 0, stored := 0, ok := false }, blockCount := 0, blockFailCount := 0,
    status := { s.regs.status with imageValid := false } }

/-- How many blocks failed their checksum (R42, R138). -/
def failCount (blocks : List BlockEntry) : Nat := blocks.countP (fun b => !b.ok)

/-- The header registers, the block counts and IMAGE_VALID of a complete image (R138); the name is packed with byte j in
bits [8j+7 : 8j] (R69). -/
def State.setImage (s : State) (hdr : Header) (blocks : List BlockEntry) : State :=
  s.setRegs { s.regs with
    hdrNameLo := byteAt hdr.name 3 ++ byteAt hdr.name 2 ++ byteAt hdr.name 1 ++ byteAt hdr.name 0
    hdrNameHi := byteAt hdr.name 4
    hdrId := hdr.id, hdrType := hdr.fileType, hdrLength := hdr.length, hdrLoad := hdr.load, hdrGo := hdr.go
    hdrCksum := hdr.cksum
    blockCount := BitVec.ofNat 9 blocks.length
    blockFailCount := BitVec.ofNat 9 (failCount blocks)
    status := { s.regs.status with imageValid := true } }

/-- The records of the blocks, written to BLK (R138). -/
def State.writeBlocks (s : State) (blocks : List BlockEntry) : State :=
  s.setMem { s.mem with blk := Buf.writePrefix s.mem.blk blocks }

/-- The body of ASSEMBLE (R138). -/
def assembleBody (s : State) : Stage :=
  if s.regs.byteCount.toNat > s.params.maxSamples then .raised s.clearImage (.badConfig 6)
  else match assemble (s.bytes s.regs.byteCount.toNat) with
    | .truncated e blocks => .raised (s.writeBlocks blocks).clearImage (.truncated e)
    | .image hdr blocks => .done ((s.writeBlocks blocks).setImage hdr blocks)

/-- ASSEMBLE (R138). -/
def execAssemble (s : State) : Host.Outcome State Fault Refusal := (assembleBody s).finish

end Sys2Proof.Machine
end

