-- ==== Sys2Proof/Machine/ByteFramer.lean ====
section
/-! DEFINITION. Stage 4, the byte framer (R119 to R125): frames of 11 bits by position, and FRAME. -/

namespace Sys2Proof.Machine

/-- `byteOf` of R122: bits 1 to 8 of a frame, the least significant first; its start and stop bits are not looked at
(R121). -/
def byteOf (f : List Bool) : Byte :=
  BitVec.ofNat 8 ((List.range 8).foldl (fun acc m => acc + (f.getD (1 + m) false).toNat * 2 ^ m) 0)

/-- `frame` of R123: one byte for each complete frame, the frames following one another from bit 0 (R120). -/
def frame (b : List Bool) : List Byte :=
  (List.range (b.length / frameBits)).map (fun k => byteOf ((b.drop (frameBits * k)).take frameBits))

/-- BYTE_COUNT (R125). -/
def State.setByteCount (s : State) (n : Nat) : State := s.setRegs { s.regs with byteCount := natWord n }

/-- The body of FRAME (R125). -/
def frameBody (s : State) : Stage :=
  if s.regs.bitCount.toNat > s.params.maxSamples then .raised (s.setByteCount 0) (.badConfig 5)
  else
    let y := frame (s.bits s.regs.bitCount.toNat)
    .done ((s.setMem { s.mem with byte := Buf.writePrefix s.mem.byte y }).setByteCount y.length)

/-- FRAME (R125). -/
def execFrame (s : State) : Host.Outcome State Fault Refusal := (frameBody s).finish

end Sys2Proof.Machine
end

