-- ==== Sys2Proof/Machine/EdgeExtractor.lean ====
section
/-! DEFINITION. Stage 1, the edge extractor (R85 to R96): silence trimming, zero crossings, and EXTRACT. -/

namespace Sys2Proof.Machine

/-- A sample below the silence threshold in absolute value (R87). -/
def nearSilent (threshold : Nat) (v : Int) : Bool := v.natAbs < threshold

/-- `trim` of R87: the index of the first retained sample and the samples from it to the last retained one; (0, []) when
every sample is near-silent. -/
def trim (s : List Int) (threshold : Nat) : Nat × List Int :=
  match s.dropWhile (nearSilent threshold) with
  | [] => (0, [])
  | v :: rest =>
    (s.length - (v :: rest).length, ((v :: rest).reverse.dropWhile (nearSilent threshold)).reverse)

/-- `rec` of R90 for the samples `a`, `b` at indices `i`, `i + 1`, computed exactly (R89). -/
def crossingRecord (i : Nat) (a b : Int) : Crossing :=
  { index := i, p := a.natAbs, q := a.natAbs + b.natAbs, rising := a < 0 }

/-- Whether two neighbouring samples are in different sign classes, zero being non-negative (R88). -/
def signChange (a b : Int) : Bool := decide (a < 0) != decide (b < 0)

/-- The crossings of a sequence whose first sample has index `i`, in increasing order (R91). -/
def crossingsFrom (i : Nat) (t : List Int) : List Crossing :=
  match t with
  | a :: b :: rest =>
    if signChange a b then crossingRecord i a b :: crossingsFrom (i + 1) (b :: rest)
    else crossingsFrom (i + 1) (b :: rest)
  | [_] => []
  | [] => []

/-- `crossings` of R91. -/
def crossings (t : List Int) : List Crossing := crossingsFrom 0 t

/-- The collaborator's signal is mono, uncompressed audio (R31, R85). -/
def Format.acceptable (f : Format) : Bool := f.channels == 1 && !f.compressed

/-- TRIM_START, TRIM_LEN and XING_COUNT (R96). -/
def State.setExtracted (s : State) (start len count : Nat) : State :=
  s.setRegs { s.regs with trimStart := natWord start, trimLen := natWord len, xingCount := natWord count }

/-- The body of EXTRACT (R96). -/
def extractBody (s : State) : Stage :=
  if !s.regs.format.acceptable then .raised (s.setExtracted 0 0 0) .unsupportedFormat
  else if s.regs.sampleCount.toNat > s.params.maxSamples then .raised (s.setExtracted 0 0 0) (.badConfig 1)
  else
    let kept := trim (s.samples s.regs.sampleCount.toNat) s.regs.silenceThr.toNat
    let found := crossings kept.2
    .done ((s.setMem { s.mem with xing := Buf.writePrefix s.mem.xing found }).setExtracted
      kept.1 kept.2.length found.length)

/-- EXTRACT (R96). -/
def execExtract (s : State) : Host.Outcome State Fault Refusal := (extractBody s).finish

end Sys2Proof.Machine
end

