-- ==== Sys2Proof/Machine/Control.lean ====
section
/-! DEFINITION. The control commands (R144 to R147) and the illegal words (R151). -/

namespace Sys2Proof.Machine

/-- NOP (R144). -/
def execNop (s : State) : Host.Outcome State Fault Refusal := (Stage.done s).finish

/-- DECODE's starting state (R146, D35): every output count, BAUD and the image registers 0. -/
def State.clearOutputs (s : State) : State :=
  (s.setRegs { s.regs with
    trimStart := 0, trimLen := 0, xingCount := 0, estTotal := 0, histCount := 0, baud := 0, symCount := 0,
    preambleLen := 0, bitCount := 0, byteCount := 0 }).clearImage

/-- The five stage bodies in order, the first `raise` ending them (R2, R146). -/
def pipeline (s : State) : Stage :=
  ((((extractBody s).andThen classifyBody).andThen bitdecBody).andThen frameBody).andThen assembleBody

/-- The body of DECODE (R146). -/
def decodeBody (s : State) : Stage :=
  if !s.regs.format.acceptable then .raised s.clearOutputs .unsupportedFormat
  else if s.regs.sampleCount.toNat > s.params.maxSamples then .raised s.clearOutputs (.badConfig 1)
  else if s.regs.sampleRate = 0 then .raised s.clearOutputs (.badConfig 2)
  else pipeline s.clearOutputs

/-- DECODE (R146). -/
def execDecode (s : State) : Host.Outcome State Fault Refusal := (decodeBody s).finish

/-- The body of RESET (R147): every register takes its reset value, LASTCMD keeps 0xF, the buffers stay. -/
def resetBody (s : State) : Stage :=
  .done (s.setRegs { Regs.reset s.params with status := { Status.reset with lastCmd := 0xF } })

/-- RESET (R147). -/
def execReset (s : State) : Host.Outcome State Fault Refusal := (resetBody s).finish

/-- The body of an illegal word (R151): `raise ILLEGAL_COMMAND()` and nothing else. -/
def illegalBody (s : State) : Stage := .raised s .illegalCommand

/-- Reserved opcode 0x7 (R80, R151). -/
def execReserved7 (s : State) : Host.Outcome State Fault Refusal := (illegalBody s).finish
/-- Reserved opcode 0x8 (R80, R151). -/
def execReserved8 (s : State) : Host.Outcome State Fault Refusal := (illegalBody s).finish
/-- Reserved opcode 0x9 (R80, R151). -/
def execReserved9 (s : State) : Host.Outcome State Fault Refusal := (illegalBody s).finish
/-- Reserved opcode 0xA (R80, R151). -/
def execReservedA (s : State) : Host.Outcome State Fault Refusal := (illegalBody s).finish
/-- Reserved opcode 0xB (R80, R151). -/
def execReservedB (s : State) : Host.Outcome State Fault Refusal := (illegalBody s).finish
/-- Reserved opcode 0xC (R80, R151). -/
def execReservedC (s : State) : Host.Outcome State Fault Refusal := (illegalBody s).finish
/-- Reserved opcode 0xD (R80, R151). -/
def execReservedD (s : State) : Host.Outcome State Fault Refusal := (illegalBody s).finish
/-- Reserved opcode 0xE (R80, R151). -/
def execReservedE (s : State) : Host.Outcome State Fault Refusal := (illegalBody s).finish

/-- A word with bits [31:4] not all zero (R79, R151); nothing depends on the rest of the word. -/
def execIllegal (_word : Word) (s : State) : Host.Outcome State Fault Refusal := (illegalBody s).finish

end Sys2Proof.Machine
end

