-- ==== Sys2Proof/Machine/Step.lean ====
section
/-! DEFINITION. One step: the next host access, a move of the reset input, or the engine's turn (R23, R59, R140). -/

namespace Sys2Proof.Machine

/-- The engine's turn (R140): it performs the pending command, or does nothing if there is none. -/
def engineTurn (s : State) : Host.Outcome State Fault Refusal :=
  match s.ready with
  | some i => exec i s
  | none => .next s

/-- One step of the core and its host. What comes next stands at the head of `inputs`; when nothing does, the engine has
its turn, so that every accepted command is performed (R142, log 8). A host request whose address is not a multiple of 4
is refused (R58). -/
def step (s : State) : Host.Outcome State Fault Refusal :=
  match s.inputs with
  | [] => engineTurn s
  | .engine :: rest => engineTurn { s with inputs := rest }
  | .read a :: rest => if aligned a then .next (hostRead a { s with inputs := rest }) else .refused (.misaligned a)
  | .write a v :: rest => if aligned a then .next (hostWrite a v { s with inputs := rest }) else .refused (.misaligned a)
  | .rst level :: rest => .next (resetInput level { s with inputs := rest })

/-- The state whose next step performs the command whose `nbits` bits are `w`: the word has just been accepted, as a host
write to CMD accepts it (R139), and the engine moves next (log 9). -/
def State.withFetchWord (s : State) (nbits w : Nat) : State := s.issued (BitVec.ofNat 32 (w % 2 ^ nbits))

end Sys2Proof.Machine
end

