-- ==== Sys2Proof/Machine/HostProgram.lean ====
section
/-! DEFINITION. The host-program notation of R83 and what it expands to (R84). -/

namespace Sys2Proof.Machine

/-- The target of WR and RD: a register name, an element (its word +0) or an address (R83). -/
inductive HostTarget where
  | reg (r : Reg)
  | element (w : Window) (k : Nat)
  | addr (a : Word)
  deriving DecidableEq, Repr

/-- The address a target stands for (R83). -/
def HostTarget.toAddr (t : HostTarget) : Word :=
  match t with
  | .reg r => regAddr r
  | .element w k => elementAddr w k 0
  | .addr a => a

/-- One line of a host program (R83). -/
inductive HostOp where
  /-- `WR <target>, <value>`. -/
  | wr (t : HostTarget) (v : Word)
  /-- `RD <target> -> <name>`: the value read is the latest entry of `replies`. -/
  | rd (t : HostTarget)
  /-- `CMD <MNEMONIC>`: a write of the command's word to CMD. -/
  | cmd (i : Instr)
  /-- `WAIT`: STATUS is read until BUSY is clear; `polls` reads find it set before the engine's turn comes (log 19). -/
  | wait (polls : Nat)
  /-- `WRBUF <BUF>, <k>, [v0, v1, ...]`. -/
  | wrbuf (w : Window) (k : Nat) (vs : List Word)
  /-- `RDBUF <BUF>, <k>, <n> -> <name>`. -/
  | rdbuf (w : Window) (k n : Nat)
  deriving DecidableEq, Repr

/-- The writes of WRBUF: element `k + j` gets the `j`-th value (R83). -/
def writesFrom (w : Window) (k : Nat) (vs : List Word) : List Input :=
  match vs with
  | [] => []
  | v :: vs => .write (elementAddr w k 0) v :: writesFrom w (k + 1) vs

/-- The bus accesses an operation expands to, and nothing else (R84); WAIT is also where the engine gets its turn. -/
def HostOp.expand (op : HostOp) : List Input :=
  match op with
  | .wr t v => [.write t.toAddr v]
  | .rd t => [.read t.toAddr]
  | .cmd i => [.write (regAddr .cmd) (encodeCmd i)]
  | .wait polls => List.replicate polls (.read (regAddr .status)) ++ [.engine, .read (regAddr .status)]
  | .wrbuf w k vs => writesFrom w k vs
  | .rdbuf w k n => (List.range n).map (fun j => .read (elementAddr w (k + j) 0))

/-- A host program as the sequence of what happens at the core's boundary (R72, R84). -/
def hostProgram (ops : List HostOp) : List Input := ops.flatMap HostOp.expand

end Sys2Proof.Machine
end

