-- ==== Sys2Proof/Machine/Views.lean ====
section
/-! DEFINITION. Values the spec defines over the state or over inputs and the core does not store: the ProgramImage (R43),
positions and percentages as exact rationals (R36, R90), and the whole decoder as a pure function (R145). -/

namespace Sys2Proof.Machine

/-- `pos` of R90: the position of a crossing in the trimmed sequence. -/
def Crossing.pos (c : Crossing) : ℚ := c.index + (c.p : ℚ) / c.q

/-- A frequency estimate as a rational (R15, R99). -/
def Freq.value (f : Freq) : ℚ := (f.num : ℚ) / f.den

/-- The index in SAMP of the sample before crossing `k` (R91): INDEX + TRIM_START. -/
def State.crossingSample (s : State) (k : Nat) : Nat := (s.xing k).index + s.regs.trimStart.toNat

/-- The percentage of histogram entry `k` (R36, R102). -/
def State.percentage (s : State) (k : Nat) : ℚ := 100 * ((s.hist k).count : ℚ) / s.regs.estTotal.toNat

/-- The ProgramImage (R43). -/
structure ProgramImage where
  /-- The five raw name bytes. -/
  name : List Byte
  fileType : Byte
  length : BitVec 16
  load : BitVec 16
  go : BitVec 16
  /-- The payload and the verdict of each data block, in order. -/
  blocks : List (List Byte × Bool)
  deriving DecidableEq, Repr

/-- The name bytes in HDR_NAME_LO and HDR_NAME_HI, byte 0 first (R41, R69). -/
def Regs.name (r : Regs) : List Byte :=
  [r.hdrNameLo.extractLsb' 0 8, r.hdrNameLo.extractLsb' 8 8, r.hdrNameLo.extractLsb' 16 8,
    r.hdrNameLo.extractLsb' 24 8, r.hdrNameHi]

/-- BYTE[a .. a + n) as a host reads it (R43, R170). -/
def State.payload (s : State) (a n : Nat) : List Byte := (List.range n).map (fun i => s.byte (a + i))

/-- The header record the registers hold, with its checksum and verdict (R41, R131). -/
def Regs.header (r : Regs) : Header :=
  { name := r.name, id := r.hdrId, fileType := r.hdrType, length := r.hdrLength, load := r.hdrLoad, go := r.hdrGo,
    cksum := r.hdrCksum }

/-- BLK[0 .. BLOCK_COUNT) (R42). -/
def State.blockEntries (s : State) : List BlockEntry := (List.range s.regs.blockCount.toNat).map s.blk

/-- The ProgramImage the state holds: none unless IMAGE_VALID = 1 (R43). Its payload bytes are those BYTE holds now
(R170). -/
def State.programImage (s : State) : Option ProgramImage :=
  if s.regs.status.imageValid then
    some
      { name := s.regs.name, fileType := s.regs.hdrType, length := s.regs.hdrLength, load := s.regs.hdrLoad
        go := s.regs.hdrGo
        blocks := (List.range s.regs.blockCount.toNat).map (fun k =>
          (s.payload (s.blk k).offset (s.blk k).length, (s.blk k).ok)) }
  else none

/-- The ProgramImage of an assembled byte stream (R43, R136): of the header and block records, what R43 lists, with the
payloads. -/
def imageOf (y : List Byte) (hdr : Header) (blocks : List BlockEntry) : ProgramImage where
  name := hdr.name
  fileType := hdr.fileType
  length := hdr.length
  load := hdr.load
  go := hdr.go
  blocks := blocks.map (fun b => (slice y b.offset b.length, b.ok))

/-- What `decode` answers (R145): the whole image `assemble` makes, header and block records with their checksums (R136),
beside the byte stream `y` its payloads lie in (R43), and the histogram; or one error with all it carries (R106, R116), and
the histogram if it was built. -/
inductive DecodeResult where
  | image (hdr : Header) (blocks : List BlockEntry) (y : List Byte) (h : List HistEntry)
  | error (e : FatalError) (h : Option (List HistEntry))
  deriving DecidableEq, Repr

/-- `decode` of R145, from the bitstream on. -/
def decodeStream (h : List HistEntry) (bits : List Bool) : DecodeResult :=
  let y := frame bits
  match assemble y with
  | .truncated k _ => .error (.truncated k) (some h)
  | .image hdr blocks => .image hdr blocks y h

/-- `decode` of R145, from the tone symbols on. -/
def decodeTones (h : List HistEntry) (b : Baud) (tones : List Tone) : DecodeResult :=
  match bitDecode b tones with
  | (_, some (p, ctx)) => .error (.invalidSequence p ctx) (some h)
  | (bits, none) => decodeStream h bits

/-- `decode` of R145, from the frequency estimates on. -/
def decodeEstimates (es : List Freq) : DecodeResult :=
  let h := histogram es
  match inferBaud h with
  | .only1200 => .error .faulty1200Only (some h)
  | .no1200 => .error .faultyNo1200 (some h)
  | .baud b =>
    match mapSymbols b 0 es with
    | (_, some (j, f)) => .error (.unidentifiedTone j f) (some h)
    | (tones, none) => decodeTones h b tones

/-- `decode` of R145: the source's entry contract as a pure function of the format signal, the samples, the sample rate
and the silence threshold. -/
def decodeSamples (fmt : Format) (samples : List Int) (sampleRate threshold : Nat) : DecodeResult :=
  if !fmt.acceptable then .error .unsupportedFormat none
  else match estimates sampleRate (crossings (trim samples threshold).2) with
    | .zeroInterval j => .error (.zeroInterval j) none
    | .ok es => decodeEstimates es

/-- HIST[0 .. HIST_COUNT), the histogram where HIST_VALID says it was built (R36, R160). -/
def State.histEntries (s : State) : List HistEntry := (List.range s.regs.histCount.toNat).map s.hist

end Sys2Proof.Machine
end

