-- ==== Sys2Proof/Safety.lean ====
section
/-! DEFINITION. What the claims are stated in: an idle core, what a command leaves alone, and the invariants of the core's
states. -/

namespace Sys2Proof.Machine

/-- The host may issue a command: `rst` is low and BUSY = 0 (R139, R162). -/
abbrev State.Idle (s : State) : Prop := s.rst = false ∧ s.regs.status.busy = false

/-- A command is pending and nothing holds the engine back: `rst` is low and BUSY = 1 (R29, R162). -/
abbrev State.Busy (s : State) : Prop := s.rst = false ∧ s.regs.status.busy = true

/-- Everything outside the register block, the buffers and the pending command is as before. -/
abbrev State.SameOutside (s t : State) : Prop :=
  t.params = s.params ∧ t.rst = s.rst ∧ t.inputs = s.inputs ∧ t.replies = s.replies ∧ t.draws = s.draws ∧
    t.epoch = s.epoch

/-- The fields of STATUS that no command but RESET writes are as before, and those of a completed command are as R141
leaves them. -/
abbrev Status.CompletedFrom (a b : Status) : Prop :=
  b.busy = false ∧ b.done = true ∧ b.werr = a.werr ∧ b.lastCmd = a.lastCmd

/-- The symbols of one bit: Z Low symbols for 0, O High symbols for 1 (R110, R111). -/
def tokenOf (b : Baud) (bit : Bool) : List Tone :=
  if bit then List.replicate (oneLen b) .high else List.replicate (zeroLen b) .low

/-- The frame that carries a byte: start bit, its bits least significant first, stop bits (R124). -/
def frameOf (v : Byte) : List Bool := false :: ((List.range 8).map (fun m => v.getLsbD m) ++ [true, true])

/-- The length of data block `k` of a header that declares `len` bytes (R133, R134). -/
def blockLen (len k : Nat) : Nat := min 256 (len - 256 * k)

/-- The number of data blocks of a header that declares `len` bytes, ceil(len / 256) (R13, R134). -/
def blocksFor (len : Nat) : Nat := (len + 255) / 256

/-! ## Invariants -/

/-- The command protocol: BUSY = 1 exactly while a command is pending (R29, R53), no report stands while it is (R139), an
error is reported exactly by a code of R148 (R29), and without one the ERR_* registers are 0 (R40). -/
def State.ProtocolInv (s : State) : Prop :=
  s.regs.status.busy = s.pending.isSome ∧
  (s.regs.status.busy = true → s.regs.status.done = false ∧ s.regs.status.err = false) ∧
  s.regs.status.err = (s.regs.status.errCode != 0) ∧ s.regs.status.errCode.toNat ≤ 9 ∧
  (s.regs.status.err = false →
    s.regs.errIndex = 0 ∧ s.regs.errFreq = 0 ∧ s.regs.errCtx = 0 ∧ s.regs.errCtxLen = 0)

/-- While `rst` is asserted the core is in its reset state (R162). -/
def State.ResetInv (s : State) : Prop :=
  s.rst = true → s.regs = Regs.reset s.params ∧ s.mem = Memory.empty ∧ s.pending = none

/-- A crossing record as EXTRACT makes it (R9, R46, R90): 0 ≤ P ≤ Q, Q ≥ 1, the widths of R9, INDEX and INDEX + 1 indices
of samples. -/
def Crossing.Legal (p : Params) (c : Crossing) : Prop :=
  1 ≤ c.q ∧ c.p ≤ c.q ∧ c.q ≤ 2 ^ p.sampleBits - 1 ∧ c.p ≤ 2 ^ (p.sampleBits - 1) ∧ c.index + 1 < p.maxSamples

/-- `pos c1 ≤ pos c2` (R93), in integers. -/
def Crossing.NotAfter (c1 c2 : Crossing) : Prop :=
  (c1.index * c1.q + c1.p) * c2.q ≤ (c2.index * c2.q + c2.p) * c1.q

/-- What the buffers hold: legal parameters (R7), no element at or beyond a capacity (R44), samples of W bits (R45), the
records of R46, R50 and R51, a threshold of W bits (R33), and XING[0 .. XING_COUNT) written (R46) and in the order of
R93. -/
def State.DataInv (s : State) : Prop :=
  s.params.Legal ∧
  (∀ e ∈ s.mem.samp, e.1 < s.params.maxSamples ∧
    -(2 : Int) ^ (s.params.sampleBits - 1) ≤ e.2 ∧ e.2 < 2 ^ (s.params.sampleBits - 1)) ∧
  (∀ e ∈ s.mem.xing, e.1 < s.params.maxSamples ∧ e.2.Legal s.params) ∧
  (∀ e ∈ s.mem.sym, e.1 < s.params.maxSamples) ∧
  (∀ e ∈ s.mem.bit, e.1 < s.params.maxSamples) ∧
  (∀ e ∈ s.mem.byte, e.1 < s.params.maxSamples) ∧
  (∀ e ∈ s.mem.hist, e.1 < s.params.maxSamples ∧ 1 ≤ e.2.count ∧ 100 ∣ e.2.bucket) ∧
  (∀ e ∈ s.mem.blk, e.1 < 256 ∧ 1 ≤ e.2.length ∧ e.2.length ≤ 256 ∧ e.2.ok = (e.2.computed == e.2.stored)) ∧
  s.regs.silenceThr.toNat < 2 ^ s.params.sampleBits ∧
  s.regs.xingCount.toNat ≤ s.params.maxSamples ∧
  (∀ k, k < s.regs.xingCount.toNat → (Buf.read? s.mem.xing k).isSome) ∧
  (∀ k, k + 1 < s.regs.xingCount.toNat → (s.xing k).NotAfter (s.xing (k + 1)))

/-- What HIST_VALID says (R29, R102): the entries below HIST_COUNT have different buckets and their counts sum to
EST_TOTAL. -/
def State.HistInv (s : State) : Prop :=
  s.regs.status.histValid = true →
    (s.histEntries.map (fun h => h.bucket)).Nodup ∧
    (s.histEntries.map (fun h => h.count)).sum = s.regs.estTotal.toNat

/-- What IMAGE_VALID says (R29, R42, R134): BLOCK_COUNT entries of BLK are the blocks of the declared length, each at its
place in the byte stream, BLOCK_FAIL_COUNT of them fail, and every verdict compares the two checksums (R129). -/
def State.ImageInv (s : State) : Prop :=
  s.regs.status.imageValid = true →
    s.regs.blockCount.toNat = blocksFor s.regs.hdrLength.toNat ∧
    (∀ k, k < s.regs.blockCount.toNat →
      (s.blk k).offset = 219 + 257 * k ∧ (s.blk k).length = blockLen s.regs.hdrLength.toNat k ∧
        (s.blk k).ok = ((s.blk k).computed == (s.blk k).stored)) ∧
    s.regs.blockFailCount.toNat = (List.range s.regs.blockCount.toNat).countP (fun k => !(s.blk k).ok) ∧
    s.regs.hdrCksum.ok = (s.regs.hdrCksum.computed == s.regs.hdrCksum.stored)

end Sys2Proof.Machine
end

