-- ==== Sys2Proof/Certificates/Slice0/Obligations.lean ====
section
/-! DEFINITION. The statements for the provers. A statement's docstring names the rules of spec/ it formalises. -/

open Sys2Proof Sys2Proof.Machine

/-! ## Command words (R76 to R80) -/

/-- R78: the eight command words; R80: the reserved opcodes; R79: a word with bits [31:4] not zero. -/
def Obligations.CommandWordsDecodeAsTabled : Prop :=
  (decodeCmd 0x00000000#32 = .nop ∧ decodeCmd 0x00000001#32 = .decode ∧ decodeCmd 0x00000002#32 = .extract ∧
    decodeCmd 0x00000003#32 = .classify ∧ decodeCmd 0x00000004#32 = .bitdec ∧ decodeCmd 0x00000005#32 = .frame ∧
    decodeCmd 0x00000006#32 = .assemble ∧ decodeCmd 0x0000000F#32 = .reset) ∧
  (decodeCmd 0x00000007#32 = .reserved7 ∧ decodeCmd 0x0000000E#32 = .reservedE) ∧
  decodeCmd 0x00000017#32 = .illegal 0x17#32

/-- Decoding and encoding agree in both directions: every command is read back from its word, and every word is the
encoding of the command it decodes to (R76, R78, R79). The illegal words of R79 are those from 0x10 on. -/
def Obligations.DecodeAndEncodeAgree : Prop :=
  (∀ i : Instr, WellFormed i → decodeCmd (encodeCmd i) = i) ∧
  (∀ w : Word, WellFormed (decodeCmd w) ∧ encodeCmd (decodeCmd w) = w) ∧
  (∀ w : Word, 16 ≤ w.toNat ↔ decodeCmd w = .illegal w)

/-! ## Steps, acceptance and completion (R139 to R142, R166) -/

/-- A step runs the command that was accepted, and the engine does nothing without one: when the engine has its turn, with `w` pending and `rst` low, the step is
`exec` of the command `w` decodes to; a turn listed in `inputs` is used up (R75, R140). With nothing pending, or with
`rst` asserted (R162), the turn leaves the state as it is. The step after `withFetchWord` runs the command of the word it
was given. The order of moves that `inputs` gives, and `withFetchWord`, are the model's (log 8, 9). -/
def Obligations.StepRunsThePendingCommand : Prop :=
  (∀ (s : State) (w : Word) (rest : List Input), s.rst = false → s.pending = some w →
    (s.inputs = [] → step s = exec (decodeCmd w) s) ∧
    (s.inputs = .engine :: rest → step s = exec (decodeCmd w) { s with inputs := rest })) ∧
  (∀ (s : State) (rest : List Input), s.pending = none ∨ s.rst = true →
    (s.inputs = [] → step s = .next s) ∧
    (s.inputs = .engine :: rest → step s = .next { s with inputs := rest })) ∧
  (∀ (s : State) (w : Nat), w < 2 ^ 32 →
    step (s.withFetchWord 32 w) =
      exec (decodeCmd (BitVec.ofNat 32 w)) { s.accept (BitVec.ofNat 32 w) with rst := false })

/-- A write to CMD (address 0x008) while BUSY = 0 is accepted in one step that writes what R139 lists, the word itself being
what is pending: the model latches the value of the write (R75) where R139 latches the decoded command (log 16). While
BUSY = 1 it is not accepted and sets WERR (R166). -/
def Obligations.CmdWriteIsAccepted : Prop :=
  ∀ (s : State) (v : Word) (rest : List Input), s.inputs = .write 0x008#32 v :: rest →
    (s.Idle → step s = .next { s with
      inputs := rest
      pending := some v
      regs := { s.regs with
        errIndex := 0, errFreq := 0, errCtx := 0, errCtxLen := 0
        status := { s.regs.status with
          busy := true, done := false, err := false, errCode := 0, lastCmd := v.extractLsb' 0 4
          imageValid := s.regs.status.imageValid &&
            !(decodeCmd v ∈ [Instr.decode, .extract, .classify, .bitdec, .frame, .assemble])
          histValid := s.regs.status.histValid && !(decodeCmd v ∈ [Instr.decode, .classify]) } } }) ∧
    (s.Busy → step s = .next { s with
      inputs := rest, regs := { s.regs with status := { s.regs.status with werr := true } } })

/-- R166: while BUSY = 1 a write to CTRL (0x004) takes effect, a write to STATUS (0x00C) takes effect on its W1C fields, and
every other write changes nothing but WERR, which it sets: that a write to a read-only or unmapped address sets it too is the
model's literal reading of R166 (log 12). -/
def Obligations.WritesWhileBusy : Prop :=
  ∀ (s : State) (a v : Word) (rest : List Input), s.Busy → a.toNat % 4 = 0 → s.inputs = .write a v :: rest →
    step s = .next { s with
      inputs := rest
      regs :=
        if a = 0x004#32 then { s.regs with irqEn := v.getLsbD 0 }
        else if a = 0x00C#32 then
          { s.regs with status := { s.regs.status with
              done := s.regs.status.done && !v.getLsbD 1, werr := s.regs.status.werr && !v.getLsbD 3 } }
        else { s.regs with status := { s.regs.status with werr := true } } }

/-- R142: every accepted command completes: with command word `v` just accepted, the next step answers a state in which
nothing is pending, BUSY = 0 and DONE = 1. -/
def Obligations.EveryAcceptedCommandCompletes : Prop :=
  ∀ (s : State) (v : Word), ∃ t, step (s.issued v) = .next t ∧ t.pending = none ∧
    t.regs.status.busy = false ∧ t.regs.status.done = true

/-! ## Host reads and writes (R24, R25, R57 to R68, R73) -/

/-- A host request whose address is not a multiple of 4 is refused (R58), and every other one is served. That it is refused
while `rst` is asserted too, where R162 gives every access no effect, is the model's reading (log 11). -/
def Obligations.OnlyMisalignedRequestsAreRefused : Prop :=
  ∀ (s : State) (a v : Word) (rest : List Input),
    (s.inputs = .read a :: rest ∨ s.inputs = .write a v :: rest) →
      (a.toNat % 4 ≠ 0 → step s = .refused (.misaligned a)) ∧ (a.toNat % 4 = 0 → ∃ t, step s = .next t)

/-- R68: a host read changes nothing: it only takes its place in what the host has read, and in the count of free values
used. -/
def Obligations.ReadsHaveNoSideEffects : Prop :=
  ∀ (s t : State) (a : Word) (rest : List Input), s.inputs = .read a :: rest → step s = .next t →
    t.regs = s.regs ∧ t.mem = s.mem ∧ t.pending = s.pending ∧ t.params = s.params ∧ t.rst = s.rst ∧
      t.epoch = s.epoch ∧ t.inputs = rest ∧ t.replies.tail = s.replies ∧ t.replies ≠ []

/-- R73: while BUSY = 1 a read of ID, CTRL or STATUS returns its value; a read of any other address returns a free value,
used for no other read: the counter that makes it so is the model's, and so is the reading that an unmapped address is such
an address (log 7). -/
def Obligations.ReadsWhileBusy : Prop :=
  ∀ (s : State) (a : Word) (rest : List Input), s.Busy → a.toNat % 4 = 0 → s.inputs = .read a :: rest →
    (a = 0x000#32 → step s = .next { s with inputs := rest, replies := 0x43415301#32 :: s.replies }) ∧
    (a = 0x004#32 → step s = .next { s with
      inputs := rest, replies := (if s.regs.irqEn then 1#32 else 0#32) :: s.replies }) ∧
    (a = 0x00C#32 → step s = .next { s with inputs := rest, replies := s.regs.status.toWord :: s.replies }) ∧
    (a ≠ 0x000#32 → a ≠ 0x004#32 → a ≠ 0x00C#32 → step s = .next { s with
      inputs := rest, replies := Config.busyRead s.draws :: s.replies, draws := s.draws + 1 })

/-- R61: an idle core returns 0 for an address that names nothing and ignores a write to it: between and beyond the
registers, outside every window, and at an element at or beyond a buffer's capacity. -/
def Obligations.UnmappedAddressesReadZeroAndIgnoreWrites : Prop :=
  ∀ (s : State) (a v : Word) (rest : List Input), s.Idle → a.toNat % 4 = 0 →
    (a = 0x058#32 ∨ a = 0x05C#32 ∨ (0x088 ≤ a.toNat ∧ a.toNat < 0x10000000) ∨ 0x80000000 ≤ a.toNat ∨
      ∃ w : Window, windowBase w + windowStride w * windowCapacity s.params w ≤ a.toNat ∧
        a.toNat < windowBase w + 0x10000000) →
    (s.inputs = .read a :: rest → step s = .next { s with inputs := rest, replies := 0#32 :: s.replies }) ∧
    (s.inputs = .write a v :: rest → step s = .next { s with inputs := rest })

/-- R24, R60: the registers stand at the offsets of the table, 0x058 and 0x05C holding none; and what an idle read of each
returns (R25, R26, R28), its fields at their places, every reserved bit 0. -/
def Obligations.RegisterReads : Prop :=
  (∀ p : Params,
      (targetOf p 0x000#32 = .reg .id ∧ targetOf p 0x004#32 = .reg .ctrl ∧ targetOf p 0x008#32 = .reg .cmd ∧
        targetOf p 0x00C#32 = .reg .status ∧ targetOf p 0x010#32 = .reg .sampleRate ∧
        targetOf p 0x014#32 = .reg .format ∧ targetOf p 0x018#32 = .reg .sampleCount ∧
        targetOf p 0x01C#32 = .reg .silenceThr ∧ targetOf p 0x020#32 = .reg .trimStart ∧
        targetOf p 0x024#32 = .reg .trimLen ∧ targetOf p 0x028#32 = .reg .xingCount) ∧
      (targetOf p 0x02C#32 = .reg .estTotal ∧ targetOf p 0x030#32 = .reg .histCount ∧
        targetOf p 0x034#32 = .reg .baud ∧ targetOf p 0x038#32 = .reg .symCount ∧
        targetOf p 0x03C#32 = .reg .preambleLen ∧ targetOf p 0x040#32 = .reg .bitCount ∧
        targetOf p 0x044#32 = .reg .byteCount ∧ targetOf p 0x048#32 = .reg .errIndex ∧
        targetOf p 0x04C#32 = .reg .errFreq ∧ targetOf p 0x050#32 = .reg .errCtx ∧
        targetOf p 0x054#32 = .reg .errCtxLen) ∧
      (targetOf p 0x060#32 = .reg .hdrNameLo ∧ targetOf p 0x064#32 = .reg .hdrNameHi ∧
        targetOf p 0x068#32 = .reg .hdrId ∧ targetOf p 0x06C#32 = .reg .hdrType ∧
        targetOf p 0x070#32 = .reg .hdrLength ∧ targetOf p 0x074#32 = .reg .hdrLoad ∧
        targetOf p 0x078#32 = .reg .hdrGo ∧ targetOf p 0x07C#32 = .reg .hdrCksum ∧
        targetOf p 0x080#32 = .reg .blockCount ∧ targetOf p 0x084#32 = .reg .blockFailCount) ∧
      targetOf p 0x058#32 = .unmapped ∧ targetOf p 0x05C#32 = .unmapped) ∧
  (∀ (s : State) (r : Reg) (rest : List Input), s.Idle → s.inputs = .read (regAddr r) :: rest →
      ∃ v : Word, step s = .next { s with inputs := rest, replies := v :: s.replies } ∧
        v.toNat = match r with
          | .id => 0x43415301
          | .cmd => 0
          | .ctrl => s.regs.irqEn.toNat
          | .status => s.regs.status.busy.toNat + 2 * s.regs.status.done.toNat + 4 * s.regs.status.err.toNat +
              8 * s.regs.status.werr.toNat + 16 * s.regs.status.imageValid.toNat + 32 * s.regs.status.histValid.toNat +
              256 * s.regs.status.errCode.toNat + 4096 * s.regs.status.lastCmd.toNat
          | .sampleRate => s.regs.sampleRate.toNat
          | .format => s.regs.format.channels.toNat + 256 * s.regs.format.compressed.toNat
          | .sampleCount => s.regs.sampleCount.toNat
          | .silenceThr => s.regs.silenceThr.toNat
          | .trimStart => s.regs.trimStart.toNat
          | .trimLen => s.regs.trimLen.toNat
          | .xingCount => s.regs.xingCount.toNat
          | .estTotal => s.regs.estTotal.toNat
          | .histCount => s.regs.histCount.toNat
          | .baud => s.regs.baud.toNat
          | .symCount => s.regs.symCount.toNat
          | .preambleLen => s.regs.preambleLen.toNat
          | .bitCount => s.regs.bitCount.toNat
          | .byteCount => s.regs.byteCount.toNat
          | .errIndex => s.regs.errIndex.toNat
          | .errFreq => s.regs.errFreq.toNat
          | .errCtx => s.regs.errCtx.toNat
          | .errCtxLen => s.regs.errCtxLen.toNat
          | .hdrNameLo => s.regs.hdrNameLo.toNat
          | .hdrNameHi => s.regs.hdrNameHi.toNat
          | .hdrId => s.regs.hdrId.toNat
          | .hdrType => s.regs.hdrType.toNat
          | .hdrLength => s.regs.hdrLength.toNat
          | .hdrLoad => s.regs.hdrLoad.toNat
          | .hdrGo => s.regs.hdrGo.toNat
          | .hdrCksum => s.regs.hdrCksum.computed.toNat + 256 * s.regs.hdrCksum.stored.toNat +
              65536 * s.regs.hdrCksum.ok.toNat
          | .blockCount => s.regs.blockCount.toNat
          | .blockFailCount => s.regs.blockFailCount.toNat)

/-- R24, R25: an idle write to a register writes its RW fields and nothing else (SILENCE_THR keeps the low W bits, R33;
BAUD stores any code, R37); a read-only register ignores it; STATUS takes its W1C action (R29). -/
def Obligations.RegisterWrites : Prop :=
  ∀ (s : State) (r : Reg) (v : Word) (rest : List Input), s.Idle → r ≠ .cmd →
    s.inputs = .write (regAddr r) v :: rest →
    step s = .next { s with
      inputs := rest
      regs := match r with
        | .ctrl => { s.regs with irqEn := v.getLsbD 0 }
        | .status => { s.regs with status := { s.regs.status with
            done := s.regs.status.done && !v.getLsbD 1, werr := s.regs.status.werr && !v.getLsbD 3 } }
        | .sampleRate => { s.regs with sampleRate := v }
        | .format => { s.regs with format := { channels := v.extractLsb' 0 8, compressed := v.getLsbD 8 } }
        | .sampleCount => { s.regs with sampleCount := v }
        | .silenceThr => { s.regs with silenceThr := BitVec.ofNat 32 (v.toNat % 2 ^ s.params.sampleBits) }
        | .baud => { s.regs with baud := v.extractLsb' 0 2 }
        | .symCount => { s.regs with symCount := v }
        | .bitCount => { s.regs with bitCount := v }
        | .byteCount => { s.regs with byteCount := v }
        | _ => s.regs }

/-- R64: a write to SAMP[k] stores the low W bits as a two's-complement sample, a read returns the sample sign-extended, and
a write leaves every other element of every buffer as before. -/
def Obligations.SampleWriteThenRead : Prop :=
  ∀ (s : State) (k : Nat) (v : Word) (rest : List Input), s.params.Legal → s.Idle → k < s.params.maxSamples →
    (s.inputs = .read (elementAddr .samp k 0) :: rest →
      step s = .next { s with inputs := rest, replies := BitVec.ofInt 32 (s.samp k) :: s.replies }) ∧
    (s.inputs = .write (elementAddr .samp k 0) v :: rest →
      ∃ t, step s = .next t ∧ readWord (elementAddr .samp k 0) t = (v.setWidth s.params.sampleBits).signExtend 32 ∧
        t.samp k = (v.setWidth s.params.sampleBits).toInt ∧ (∀ j, j ≠ k → t.samp j = s.samp j) ∧
        t.mem = { s.mem with samp := t.mem.samp } ∧ t.regs = s.regs ∧ t.pending = s.pending)

/-- R47, R48, R49, R66: a read of SYM[k], BIT[k] or BYTE[k] answers the element zero-extended, High as 1 and Low as 0,
whoever wrote it; a write stores bit 0 (1 as High), bit 0 or bits [7:0], so that a read then returns those bits, and every
other element of every buffer is as before. -/
def Obligations.SymbolBitAndByteWritesThenRead : Prop :=
  ∀ (s : State) (k : Nat) (v : Word) (rest : List Input), s.params.Legal → s.Idle → k < s.params.maxSamples →
    (s.inputs = .read (elementAddr .sym k 0) :: rest →
      step s = .next { s with inputs := rest, replies := (if s.sym k = .high then 1#32 else 0#32) :: s.replies }) ∧
    (s.inputs = .read (elementAddr .bit k 0) :: rest →
      step s = .next { s with inputs := rest, replies := (if s.bit k = true then 1#32 else 0#32) :: s.replies }) ∧
    (s.inputs = .read (elementAddr .byte k 0) :: rest →
      step s = .next { s with inputs := rest, replies := (s.byte k).setWidth 32 :: s.replies }) ∧
    (s.inputs = .write (elementAddr .sym k 0) v :: rest →
      ∃ t, step s = .next t ∧ t.sym k = (if v.getLsbD 0 = true then .high else .low) ∧
        readWord (elementAddr .sym k 0) t = v &&& 1#32 ∧ (∀ j, j ≠ k → t.sym j = s.sym j) ∧
        t.mem = { s.mem with sym := t.mem.sym } ∧ t.regs = s.regs ∧ t.pending = s.pending) ∧
    (s.inputs = .write (elementAddr .bit k 0) v :: rest →
      ∃ t, step s = .next t ∧ t.bit k = v.getLsbD 0 ∧
        readWord (elementAddr .bit k 0) t = v &&& 1#32 ∧ (∀ j, j ≠ k → t.bit j = s.bit j) ∧
        t.mem = { s.mem with bit := t.mem.bit } ∧ t.regs = s.regs ∧ t.pending = s.pending) ∧
    (s.inputs = .write (elementAddr .byte k 0) v :: rest →
      ∃ t, step s = .next t ∧ t.byte k = v.extractLsb' 0 8 ∧
        readWord (elementAddr .byte k 0) t = v &&& 0xFF#32 ∧ (∀ j, j ≠ k → t.byte j = s.byte j) ∧
        t.mem = { s.mem with byte := t.mem.byte } ∧ t.regs = s.regs ∧ t.pending = s.pending)

/-- R60, R65, R67: the words of a crossing record, a histogram entry (BUCKET saturated at 2^64 - 1) and a block entry, and
that a read of any of them on an idle core answers that word; a write to any of them is ignored. -/
def Obligations.RecordWordsAreReadOnlyViews : Prop :=
  ∀ (s : State) (k f : Nat) (v : Word) (rest : List Input), s.params.Legal → s.Idle → f < 4 →
    (k < s.params.maxSamples →
      readWord (elementAddr .xing k f) s =
        (match f with
          | 0 => BitVec.ofNat 32 (s.xing k).index
          | 1 => BitVec.ofNat 32 (s.xing k).p
          | 2 => BitVec.ofNat 32 (s.xing k).q
          | _ => BitVec.ofNat 32 (s.xing k).rising.toNat) ∧
      (readWord (elementAddr .hist k 0) s).toNat + 2 ^ 32 * (readWord (elementAddr .hist k 1) s).toNat =
        min (s.hist k).bucket (2 ^ 64 - 1) ∧
      readWord (elementAddr .hist k 2) s = BitVec.ofNat 32 (s.hist k).count ∧
      readWord (elementAddr .hist k 3) s = 0#32) ∧
    (k < 256 →
      readWord (elementAddr .blk k 0) s = BitVec.ofNat 32 (s.blk k).offset ∧
      readWord (elementAddr .blk k 1) s = BitVec.ofNat 32 (s.blk k).length ∧
      (readWord (elementAddr .blk k 2) s).toNat =
        (s.blk k).computed.toNat + 256 * (s.blk k).stored.toNat + 65536 * (s.blk k).ok.toNat ∧
      readWord (elementAddr .blk k 3) s = 0#32) ∧
    (∀ w ∈ [Window.xing, .hist, .blk], k < windowCapacity s.params w →
      (s.inputs = .read (elementAddr w k f) :: rest →
        step s = .next { s with inputs := rest, replies := readWord (elementAddr w k f) s :: s.replies }) ∧
      (s.inputs = .write (elementAddr w k f) v :: rest → step s = .next { s with inputs := rest }))

/-- R55, R158: a completed command raises `irq` exactly when CTRL.IRQ_EN = 1, which no command but RESET changes; the
acceptance of a command and a write of 1 to STATUS bit 1 lower it. -/
def Obligations.IrqFollowsCompletion : Prop :=
  (∀ (i : Instr) (s t : State), exec i s = .next t →
    t.irq = t.regs.irqEn ∧ t.regs.irqEn = (s.regs.irqEn && decide (i ≠ .reset))) ∧
  (∀ (s : State) (v : Word), (s.accept v).irq = false) ∧
  (∀ (s : State) (v : Word), s.rst = false → v.getLsbD 1 = true → (hostWrite 0x00C#32 v s).irq = false)

/-! ## Reset (R162 to R164) -/

/-- R162: asserting `rst`, whatever the core is doing, drops the pending command, gives every register its reset value and
leaves no buffer element written; while it is asserted host accesses have no effect, reads return 0 and the
engine does nothing, and releasing it only lowers the line. That the input is a
level, and that `epoch` makes unwritten elements unspecified anew, is the model's form of it (log 6, 13). -/
def Obligations.ResetInputResetsAtAnyTime : Prop :=
  ∀ (s : State) (a v : Word) (rest : List Input),
    (s.inputs = .rst true :: rest → step s = .next { s with
      inputs := rest, rst := true, pending := none, regs := Regs.reset s.params, mem := Memory.empty
      epoch := s.epoch + 1 }) ∧
    (s.rst = true → a.toNat % 4 = 0 →
      (s.inputs = .write a v :: rest → step s = .next { s with inputs := rest }) ∧
      (s.inputs = .read a :: rest → step s = .next { s with inputs := rest, replies := 0#32 :: s.replies })) ∧
    (s.rst = true → (s.inputs = [] → step s = .next s) ∧
      (s.inputs = .engine :: rest → step s = .next { s with inputs := rest })) ∧
    (s.inputs = .rst false :: rest → step s = .next { s with inputs := rest, rst := false })

/-- R24, R163: what every register reads in the reset state, and the rest of that state: nothing pending, nothing written,
`irq` low. -/
def Obligations.ResetStateReadsAsTabled : Prop :=
  (∀ r : Reg, r ≠ .id → r ≠ .silenceThr → readReg r State.reset = 0#32) ∧
  readReg .id State.reset = 0x43415301#32 ∧
  readReg .silenceThr State.reset = State.reset.params.silenceThrReset ∧
  State.reset.pending = none ∧ State.reset.mem = Memory.empty ∧ State.reset.irq = false

/-- R147, R163, R164: RESET gives every register its reset value, keeps the buffers, and completes with DONE = 1 and
LASTCMD = 0xF, so that STATUS reads 0x0000_F002. -/
def Obligations.ResetCommandResult : Prop :=
  ∀ s : State,
    exec .reset s = .next { s with
      pending := none
      regs := { Regs.reset s.params with
        status := { busy := false, done := true, err := false, werr := false, imageValid := false, histValid := false
                    errCode := 0, lastCmd := 0xF } } } ∧
    (∀ t, exec .reset s = .next t → readReg .status t = 0x0000F002#32)

/-! ## NOP and the illegal words (R144, R151) -/

/-- R144: NOP does nothing but complete. R80, R151: a reserved opcode or a word with bits [31:4] not zero raises
ILLEGAL_COMMAND (code 9) and has no other effect; that IMAGE_VALID too stays as it was, beside ERR = 1, is the model's
reading of R139 and R151 over the last sentence of R152 (log 21). -/
def Obligations.NopAndIllegalCommandResults : Prop :=
  ∀ s : State,
    exec .nop s = .next { s with
      pending := none, regs := { s.regs with status := { s.regs.status with busy := false, done := true } } } ∧
    ∀ (i : Instr) (w : Word),
      i ∈ [.reserved7, .reserved8, .reserved9, .reservedA, .reservedB, .reservedC, .reservedD, .reservedE,
        Instr.illegal w] →
      exec i s = .next { s with
        pending := none
        regs := { s.regs with
          status := { s.regs.status with busy := false, done := true, err := true, errCode := 9 }
          errIndex := 0, errFreq := 0, errCtx := 0, errCtxLen := 0 } }

/-! ## EXTRACT (R85 to R96) -/

/-- R87: `trim` keeps the samples from the first to the last one that is not near-silent, and gives the index of the first;
it keeps nothing, at index 0, when there is none. -/
def Obligations.TrimKeepsFromFirstToLastLoudSample : Prop :=
  ∀ (s : List Int) (threshold : Nat),
    ((∀ v ∈ s, v.natAbs < threshold) → trim s threshold = (0, [])) ∧
    (∀ (a b : Nat) (u v : Int), a ≤ b → s[a]? = some u → s[b]? = some v →
      threshold ≤ u.natAbs → threshold ≤ v.natAbs →
      (∀ (k : Nat) (x : Int), s[k]? = some x → k < a ∨ b < k → x.natAbs < threshold) →
      trim s threshold = (a, (s.drop a).take (b + 1 - a)))

/-- R88, R90, R91: the crossings are, in increasing order, the records of the neighbouring samples in different sign
classes, and of no others. -/
def Obligations.CrossingsAreTheSignChanges : Prop :=
  ∀ t : List Int, crossings t =
    (List.range (t.length - 1)).filterMap (fun i =>
      let a := t.getD i 0
      let b := t.getD (i + 1) 0
      if (a < 0) ≠ (b < 0) then
        some { index := i, p := a.natAbs, q := a.natAbs + b.natAbs, rising := decide (a < 0) }
      else none)

/-- R92, R93: a rising crossing lies in (i, i + 1], at i + 1 exactly when sample i + 1 is 0; a falling one lies in
[i, i + 1), at i exactly when sample i is 0. Positions never decrease along the sequence, and two neighbours are at the same
position exactly when a zero sample stands between two negative ones. -/
def Obligations.CrossingPositionsNeverDecrease : Prop :=
  ∀ t : List Int,
    (∀ c ∈ crossings t,
      (c.rising = true → (c.index : ℚ) < c.pos ∧ c.pos ≤ c.index + 1 ∧
        (c.pos = c.index + 1 ↔ t[c.index + 1]? = some 0)) ∧
      (c.rising = false → (c.index : ℚ) ≤ c.pos ∧ c.pos < c.index + 1 ∧
        (c.pos = c.index ↔ t[c.index]? = some 0))) ∧
    (∀ (k : Nat) (c1 c2 : Crossing), (crossings t)[k]? = some c1 → (crossings t)[k + 1]? = some c2 →
      c1.pos ≤ c2.pos ∧
      (c1.pos = c2.pos ↔ c2.index = c1.index + 1 ∧
        ∃ a b, a < 0 ∧ b < 0 ∧ t[c1.index]? = some a ∧ t[c1.index + 1]? = some 0 ∧ t[c1.index + 2]? = some b))

/-- R96, where EXTRACT has its effect: mono, uncompressed input that fits SAMP. The crossings of the trimmed input go to
XING, their number and the trimming to the registers, and nothing else changes but what completion writes. -/
def Obligations.ExtractResult : Prop :=
  ∀ s : State, s.regs.format.channels = 1 → s.regs.format.compressed = false →
    s.regs.sampleCount.toNat ≤ s.params.maxSamples →
    exec .extract s =
      (let input := (List.range s.regs.sampleCount.toNat).map s.samp
       let kept := trim input s.regs.silenceThr.toNat
       let found := crossings kept.2
       .next { s with
        pending := none
        mem := { s.mem with xing := Buf.writePrefix s.mem.xing found }
        regs := { s.regs with
          status := { s.regs.status with busy := false, done := true }
          trimStart := BitVec.ofNat 32 kept.1, trimLen := BitVec.ofNat 32 kept.2.length
          xingCount := BitVec.ofNat 32 found.length } })

/-- R85, R86, R96: EXTRACT raises UNSUPPORTED_FORMAT unless the input is mono and uncompressed, else BAD_CONFIG 1 when
SAMPLE_COUNT exceeds MAX_SAMPLES; either way its counts are 0 and the buffers stay. -/
def Obligations.ExtractErrors : Prop :=
  ∀ s : State,
    let raised (code : BitVec 4) (index : Word) : State := { s with
      pending := none
      regs := { s.regs with
        status := { s.regs.status with busy := false, done := true, err := true, errCode := code }
        errIndex := index, errFreq := 0, errCtx := 0, errCtxLen := 0, trimStart := 0, trimLen := 0, xingCount := 0 } }
    (s.regs.format.channels ≠ 1 ∨ s.regs.format.compressed = true → exec .extract s = .next (raised 1 0)) ∧
    (s.regs.format.channels = 1 → s.regs.format.compressed = false →
      s.params.maxSamples < s.regs.sampleCount.toNat → exec .extract s = .next (raised 8 1))

/-- Frame of EXTRACT (R54, R96, R152): only TRIM_START, TRIM_LEN, XING_COUNT, the completion fields of STATUS and the ERR_*
registers may change, and of the buffers only XING below the new XING_COUNT. -/
def Obligations.ExtractFrame : Prop :=
  ∀ s t : State, exec .extract s = .next t →
    s.SameOutside t ∧ s.regs.status.CompletedFrom t.regs.status ∧
    t.regs.status.imageValid = s.regs.status.imageValid ∧ t.regs.status.histValid = s.regs.status.histValid ∧
    t.regs = { s.regs with
      status := t.regs.status, errIndex := t.regs.errIndex, errFreq := t.regs.errFreq, errCtx := t.regs.errCtx
      errCtxLen := t.regs.errCtxLen, trimStart := t.regs.trimStart, trimLen := t.regs.trimLen
      xingCount := t.regs.xingCount } ∧
    t.mem = { s.mem with xing := t.mem.xing } ∧
    (∀ k, t.regs.xingCount.toNat ≤ k → t.xing k = s.xing k)

/-- R95: EXTRACT run again on what it read writes the same values: it leaves the state it made as it is. -/
def Obligations.ExtractTwiceIsExtractOnce : Prop :=
  ∀ s t : State, exec .extract s = .next t → exec .extract t = .next t

/-! ## CLASSIFY (R97 to R107) -/

/-- R98, R99: on records with Q ≥ 1 whose positions never decrease, the smallest index of an interval of length 0 is
reported if there is one; else there is one estimate for each adjacent pair, exactly R / (2 × Δ). -/
def Obligations.EstimatesAreExact : Prop :=
  ∀ (r : Nat) (cs : List Crossing), (∀ c ∈ cs, 1 ≤ c.q) →
    (∀ (k : Nat) (c1 c2 : Crossing), cs[k]? = some c1 → cs[k + 1]? = some c2 → c1.pos ≤ c2.pos) →
    (∀ (j : Nat) (c1 c2 : Crossing), cs[j]? = some c1 → cs[j + 1]? = some c2 → c1.pos = c2.pos →
      (∀ (k : Nat) (d1 d2 : Crossing), k < j → cs[k]? = some d1 → cs[k + 1]? = some d2 → d1.pos ≠ d2.pos) →
      estimates r cs = .zeroInterval j) ∧
    ((∀ (k : Nat) (d1 d2 : Crossing), cs[k]? = some d1 → cs[k + 1]? = some d2 → d1.pos ≠ d2.pos) →
      ∃ es, estimates r cs = .ok es ∧ es.length = cs.length - 1 ∧
        ∀ (j : Nat) (f : Freq) (c1 c2 : Crossing), es[j]? = some f → cs[j]? = some c1 → cs[j + 1]? = some c2 →
          0 < f.den ∧ f.value = (r : ℚ) / (2 * (c2.pos - c1.pos)))

/-- R101: the bucket of an estimate is a multiple of 100 at most 50 Hz away, and where two are, the one whose quotient by
100 is even; so the sets of R103 are the open ranges the rule derives. -/
def Obligations.BucketIsTheNearestHundred : Prop :=
  ∀ f : Freq, 0 < f.den →
    (∃ k : Nat, bucket f = 100 * k ∧ |f.value - 100 * k| ≤ 50 ∧ (|f.value - 100 * k| = 50 → k % 2 = 0)) ∧
    (bucket f ∈ [500, 600, 700] ↔ 450 < f.value ∧ f.value < 750) ∧
    (bucket f ∈ [1100, 1200, 1300] ↔ 1050 < f.value ∧ f.value < 1350) ∧
    (bucket f ∈ [2300, 2400, 2500] ↔ 2250 < f.value ∧ f.value < 2550)

/-- R102: the histogram has one entry for each distinct bucket, in order of first occurrence, with the number of estimates
that fell in it; the counts sum to the total. -/
def Obligations.HistogramCountsTheBuckets : Prop :=
  ∀ es : List Freq,
    (histogram es).map (fun h => h.bucket) = ((es.map bucket).reverse.dedup).reverse ∧
    (∀ h ∈ histogram es, h.count = (es.map bucket).count h.bucket) ∧
    ((histogram es).map (fun h => h.count)).sum = es.length

/-- R103, R104: the four outcomes of the baud inference, by which buckets have an entry. -/
def Obligations.BaudInference : Prop :=
  ∀ h : List HistEntry,
    let has (bs : List Nat) : Prop := ∃ e ∈ h, e.bucket ∈ bs
    (inferBaud h = .baud .baud1200 ↔ has [1100, 1200, 1300] ∧ has [500, 600, 700]) ∧
    (inferBaud h = .baud .baud300 ↔ has [1100, 1200, 1300] ∧ ¬ has [500, 600, 700] ∧ has [2300, 2400, 2500]) ∧
    (inferBaud h = .only1200 ↔ has [1100, 1200, 1300] ∧ ¬ has [500, 600, 700] ∧ ¬ has [2300, 2400, 2500]) ∧
    (inferBaud h = .no1200 ↔ ¬ has [1100, 1200, 1300])

/-- R105, R106: the tone symbol of an exact estimate at each baud rate; below and at 450 Hz there is none. -/
def Obligations.ToneMapping : Prop :=
  ∀ f : Freq, 0 < f.den →
    (1800 < f.value → mapSymbol .baud300 f = some .high ∧ mapSymbol .baud1200 f = some .high) ∧
    (900 < f.value → f.value ≤ 1800 → mapSymbol .baud300 f = some .low ∧ mapSymbol .baud1200 f = some .high) ∧
    (450 < f.value → f.value ≤ 900 → mapSymbol .baud300 f = some .low ∧ mapSymbol .baud1200 f = some .low) ∧
    (f.value ≤ 450 → mapSymbol .baud300 f = none ∧ mapSymbol .baud1200 f = none)

/-- R107, where CLASSIFY has its effect: a sample rate, estimates for every interval, a baud rate, and a symbol `syms[j]`
for each estimate. HIST, BAUD and SYM with their counts are written, and nothing else changes but what completion
writes. -/
def Obligations.ClassifyResult : Prop :=
  ∀ (s : State) (es : List Freq) (b : Baud) (syms : List Tone),
    s.regs.sampleRate ≠ 0 →
    estimates s.regs.sampleRate.toNat ((List.range s.regs.xingCount.toNat).map s.xing) = .ok es →
    inferBaud (histogram es) = .baud b → es.map (mapSymbol b) = syms.map some →
    exec .classify s = .next { s with
      pending := none
      mem := { s.mem with
        hist := Buf.writePrefix s.mem.hist (histogram es), sym := Buf.writePrefix s.mem.sym syms }
      regs := { s.regs with
        status := { s.regs.status with busy := false, done := true, histValid := true }
        estTotal := BitVec.ofNat 32 es.length, histCount := BitVec.ofNat 32 (histogram es).length
        baud := (match b with | .baud300 => 1#2 | .baud1200 => 2#2), symCount := BitVec.ofNat 32 es.length } }

/-- R97, R98, R107: CLASSIFY raises BAD_CONFIG 2 when SAMPLE_RATE = 0 and ZERO_INTERVAL at the index of the first interval
of length 0; either way it clears what it would have written and the buffers stay. -/
def Obligations.ClassifyErrorsBeforeTheHistogram : Prop :=
  ∀ s : State,
    let raised (code : BitVec 4) (index : Word) : State := { s with
      pending := none
      regs := { s.regs with
        status := { s.regs.status with busy := false, done := true, err := true, errCode := code, histValid := false }
        errIndex := index, errFreq := 0, errCtx := 0, errCtxLen := 0
        estTotal := 0, histCount := 0, baud := 0, symCount := 0 } }
    (s.regs.sampleRate = 0 → exec .classify s = .next (raised 8 2)) ∧
    (∀ j, s.regs.sampleRate ≠ 0 →
      estimates s.regs.sampleRate.toNat ((List.range s.regs.xingCount.toNat).map s.xing) = .zeroInterval j →
      exec .classify s = .next (raised 6 (BitVec.ofNat 32 j)))

/-- R104, R106, R107: once the histogram is built it stays. A faulty recording is error 2 or 3, with BAUD and SYM_COUNT 0; an
estimate of at most 450 Hz is error 4 with its index and its whole Hz, BAUD kept, the symbols before it left in SYM and
SYM_COUNT 0. -/
def Obligations.ClassifyErrorsAfterTheHistogram : Prop :=
  ∀ (s : State) (es : List Freq),
    s.regs.sampleRate ≠ 0 →
    estimates s.regs.sampleRate.toNat ((List.range s.regs.xingCount.toNat).map s.xing) = .ok es →
    let raised (code : BitVec 4) (index freq : Word) (baud : BitVec 2) (syms : List Tone) : State := { s with
      pending := none
      mem := { s.mem with
        hist := Buf.writePrefix s.mem.hist (histogram es), sym := Buf.writePrefix s.mem.sym syms }
      regs := { s.regs with
        status := { s.regs.status with busy := false, done := true, err := true, errCode := code, histValid := true }
        errIndex := index, errFreq := freq, errCtx := 0, errCtxLen := 0
        estTotal := BitVec.ofNat 32 es.length, histCount := BitVec.ofNat 32 (histogram es).length
        baud := baud, symCount := 0 } }
    (inferBaud (histogram es) = .only1200 → exec .classify s = .next (raised 2 0 0 0 [])) ∧
    (inferBaud (histogram es) = .no1200 → exec .classify s = .next (raised 3 0 0 0 [])) ∧
    (∀ (b : Baud) (j : Nat) (f : Freq) (syms : List Tone), inferBaud (histogram es) = .baud b →
      es[j]? = some f → mapSymbol b f = none → (es.take j).map (mapSymbol b) = syms.map some →
      exec .classify s = .next (raised 4 (BitVec.ofNat 32 j) (BitVec.ofNat 32 (f.num / f.den))
        (match b with | .baud300 => 1#2 | .baud1200 => 2#2) syms))

/-- Frame of CLASSIFY (R54, R107, R152): only EST_TOTAL, HIST_COUNT, BAUD, SYM_COUNT, HIST_VALID, the completion fields of
STATUS and the ERR_* registers may change, and of the buffers only HIST below HIST_COUNT and SYM below SYM_COUNT or, after
UNIDENTIFIED_TONE, below ERR_INDEX. -/
def Obligations.ClassifyFrame : Prop :=
  ∀ s t : State, exec .classify s = .next t →
    s.SameOutside t ∧ s.regs.status.CompletedFrom t.regs.status ∧
    t.regs.status.imageValid = s.regs.status.imageValid ∧
    t.regs = { s.regs with
      status := t.regs.status, errIndex := t.regs.errIndex, errFreq := t.regs.errFreq, errCtx := t.regs.errCtx
      errCtxLen := t.regs.errCtxLen, estTotal := t.regs.estTotal, histCount := t.regs.histCount
      baud := t.regs.baud, symCount := t.regs.symCount } ∧
    t.mem = { s.mem with hist := t.mem.hist, sym := t.mem.sym } ∧
    (∀ k, t.regs.histCount.toNat ≤ k → t.hist k = s.hist k) ∧
    (∀ k, t.regs.symCount.toNat ≤ k → ¬ (t.regs.status.errCode = 4 ∧ k < t.regs.errIndex.toNat) → t.sym k = s.sym k)

/-! ## BITDEC (R108 to R118) -/

/-- R110 to R113: the decoder succeeds with bits `bits` exactly when, after the leading High symbols, the sequence is the
tokens of `bits` and then fewer than O High symbols. -/
def Obligations.BitDecoderAcceptsExactlyTheGrammar : Prop :=
  ∀ (b : Baud) (s : List Tone) (bits : List Bool),
    bitDecode b s = (bits, none) ↔
      ∃ n, n < oneLen b ∧
        s.dropWhile (fun t => t == .high) = bits.flatMap (tokenOf b) ++ List.replicate n .high

/-- R112, R114, R116: the decoder fails at position `p` with context `ctx` exactly when, after the leading High symbols and
the tokens of the bits emitted, what is left begins with neither token and is no trailing tone; the context is what is
left, up to O symbols. R115: at 1200 baud that is a High symbol followed by a Low one. R117: the first bit emitted is 0. -/
def Obligations.BitDecoderFailsAtTheFirstBadToken : Prop :=
  (∀ (b : Baud) (s : List Tone) (bits : List Bool) (p : Nat) (ctx : List Tone),
    bitDecode b s = (bits, some (p, ctx)) ↔
      ∃ rest, s.dropWhile (fun t => t == .high) = bits.flatMap (tokenOf b) ++ rest ∧ p + rest.length = s.length ∧
        ctx = rest.take (oneLen b) ∧ ¬ tokenOf b false <+: rest ∧ ¬ tokenOf b true <+: rest ∧
        ¬ (rest.length < oneLen b ∧ ∀ t ∈ rest, t = .high)) ∧
  (∀ (s : List Tone) (bits : List Bool) (p : Nat) (ctx : List Tone),
    bitDecode .baud1200 s = (bits, some (p, ctx)) →
      s[p]? = some .high ∧ s[p + 1]? = some .low ∧ ctx = [.high, .low]) ∧
  (∀ (b : Baud) (s : List Tone), (bitDecode b s).1.head? ≠ some true)

/-- R118, where BITDEC has its effect: a baud code, a symbol count that fits, and a well-formed sequence. The bits go to
BIT, the counts to PREAMBLE_LEN and BIT_COUNT, and nothing else changes but what completion writes. -/
def Obligations.BitdecResult : Prop :=
  ∀ (s : State) (b : Baud) (bits : List Bool),
    s.regs.baud = (match b with | .baud300 => 1#2 | .baud1200 => 2#2) →
    s.regs.symCount.toNat ≤ s.params.maxSamples →
    bitDecode b ((List.range s.regs.symCount.toNat).map s.sym) = (bits, none) →
    exec .bitdec s = .next { s with
      pending := none
      mem := { s.mem with bit := Buf.writePrefix s.mem.bit bits }
      regs := { s.regs with
        status := { s.regs.status with busy := false, done := true }
        preambleLen := BitVec.ofNat 32
          (((List.range s.regs.symCount.toNat).map s.sym).takeWhile (fun t => t == .high)).length
        bitCount := BitVec.ofNat 32 bits.length } }

/-- R108, R116, R118: BITDEC raises BAD_CONFIG 3 for a BAUD that is neither 1 nor 2, else BAD_CONFIG 4 for a count above
MAX_SAMPLES, with both counts 0; a malformed sequence is error 5 with its position and its context, bit m of ERR_CTX
telling whether symbol m is High (R82), BIT holding the bits emitted before it and BIT_COUNT 0. -/
def Obligations.BitdecErrors : Prop :=
  ∀ s : State,
    let syms := (List.range s.regs.symCount.toNat).map s.sym
    let raised (code : BitVec 4) (index : Word) (pre : Nat) (bits : List Bool) (ctx : List Tone) : State := { s with
      pending := none
      mem := { s.mem with bit := Buf.writePrefix s.mem.bit bits }
      regs := { s.regs with
        status := { s.regs.status with busy := false, done := true, err := true, errCode := code }
        errIndex := index, errFreq := 0
        errCtx := BitVec.ofNat 16 ((List.range ctx.length).map (fun m =>
          if ctx[m]? = some .high then 2 ^ m else 0)).sum
        errCtxLen := BitVec.ofNat 5 ctx.length
        preambleLen := BitVec.ofNat 32 pre, bitCount := 0 } }
    (s.regs.baud ≠ 1 → s.regs.baud ≠ 2 → exec .bitdec s = .next (raised 8 3 0 [] [])) ∧
    (s.regs.baud = 1 ∨ s.regs.baud = 2 → s.params.maxSamples < s.regs.symCount.toNat →
      exec .bitdec s = .next (raised 8 4 0 [] [])) ∧
    (∀ (b : Baud) (bits : List Bool) (p : Nat) (ctx : List Tone),
      s.regs.baud = (match b with | .baud300 => 1#2 | .baud1200 => 2#2) →
      s.regs.symCount.toNat ≤ s.params.maxSamples → bitDecode b syms = (bits, some (p, ctx)) →
      exec .bitdec s = .next (raised 5 (BitVec.ofNat 32 p) (syms.takeWhile (fun t => t == .high)).length bits ctx))

/-- Frame of BITDEC (R54, R118, R152): only PREAMBLE_LEN, BIT_COUNT, the completion fields of STATUS and the ERR_* registers
may change, and of the buffers only BIT below the number of bits emitted, which is below SYM_COUNT. -/
def Obligations.BitdecFrame : Prop :=
  ∀ s t : State, exec .bitdec s = .next t →
    s.SameOutside t ∧ s.regs.status.CompletedFrom t.regs.status ∧
    t.regs.status.imageValid = s.regs.status.imageValid ∧ t.regs.status.histValid = s.regs.status.histValid ∧
    t.regs = { s.regs with
      status := t.regs.status, errIndex := t.regs.errIndex, errFreq := t.regs.errFreq, errCtx := t.regs.errCtx
      errCtxLen := t.regs.errCtxLen, preambleLen := t.regs.preambleLen, bitCount := t.regs.bitCount } ∧
    t.mem = { s.mem with bit := t.mem.bit } ∧
    (∀ (b : Baud) (k : Nat), Baud.ofCode s.regs.baud = some b →
      (bitDecode b ((List.range s.regs.symCount.toNat).map s.sym)).1.length ≤ k → t.bit k = s.bit k) ∧
    (∀ k, s.regs.symCount.toNat ≤ k ∨ Baud.ofCode s.regs.baud = none → t.bit k = s.bit k)

/-! ## FRAME (R119 to R125) -/

/-- R120 to R124: the bytes of a bitstream of whole frames are the bytes the frames carry, whatever their start and stop
bits, and a remainder of fewer than 11 bits is dropped. -/
def Obligations.FramerReadsBackEveryByte : Prop :=
  (∀ (v : Byte) (start stop1 stop2 : Bool),
    frame (start :: ((List.range 8).map (fun m => v.getLsbD m) ++ [stop1, stop2])) = [v]) ∧
  (∀ (ys : List Byte) (tail : List Bool), tail.length < 11 → frame (ys.flatMap frameOf ++ tail) = ys) ∧
  (∀ bits : List Bool, (frame bits).length = bits.length / 11)

/-- R125: FRAME raises BAD_CONFIG 5 when BIT_COUNT exceeds MAX_SAMPLES; else it writes the bytes of the bits to BYTE and
their number to BYTE_COUNT. Nothing else changes but what completion writes. -/
def Obligations.FrameResult : Prop :=
  ∀ s : State,
    let bytes := frame ((List.range s.regs.bitCount.toNat).map s.bit)
    (s.regs.bitCount.toNat ≤ s.params.maxSamples →
      exec .frame s = .next { s with
        pending := none
        mem := { s.mem with byte := Buf.writePrefix s.mem.byte bytes }
        regs := { s.regs with
          status := { s.regs.status with busy := false, done := true }
          byteCount := BitVec.ofNat 32 bytes.length } }) ∧
    (s.params.maxSamples < s.regs.bitCount.toNat →
      exec .frame s = .next { s with
        pending := none
        regs := { s.regs with
          status := { s.regs.status with busy := false, done := true, err := true, errCode := 8 }
          errIndex := 5, errFreq := 0, errCtx := 0, errCtxLen := 0, byteCount := 0 } })

/-- Frame of FRAME (R54, R125, R152): only BYTE_COUNT, the completion fields of STATUS and the ERR_* registers may change,
and of the buffers only BYTE below the new BYTE_COUNT. -/
def Obligations.FrameFrame : Prop :=
  ∀ s t : State, exec .frame s = .next t →
    s.SameOutside t ∧ s.regs.status.CompletedFrom t.regs.status ∧
    t.regs.status.imageValid = s.regs.status.imageValid ∧ t.regs.status.histValid = s.regs.status.histValid ∧
    t.regs = { s.regs with
      status := t.regs.status, errIndex := t.regs.errIndex, errFreq := t.regs.errFreq, errCtx := t.regs.errCtx
      errCtxLen := t.regs.errCtxLen, byteCount := t.regs.byteCount } ∧
    t.mem = { s.mem with byte := t.mem.byte } ∧
    (∀ k, t.regs.byteCount.toNat ≤ k → t.byte k = s.byte k)

/-! ## ASSEMBLE (R126 to R138) -/

/-- R128: one byte takes the checksum `acc` of those before it to (255 - b + acc) mod 256; the checksum of n bytes is
(255 × n - Σ b) mod 256, so it does not depend on their order; and changing one byte always changes it (R137). -/
def Obligations.ChecksumClosedForm : Prop :=
  (∀ (bs : List Byte) (b : Byte),
    (checksum (bs ++ [b])).toNat = (255 - b.toNat + (checksum bs).toNat) % 256 ∧
      checksum (bs ++ [b]) = checksum bs + ~~~b) ∧
  (∀ bs : List Byte,
    ((checksum bs).toNat : Int) = (255 * (bs.length : Int) - ((bs.map (fun b => (b.toNat : Int))).sum)) % 256) ∧
  (∀ bs cs : List Byte, bs.Perm cs → checksum bs = checksum cs) ∧
  (∀ (pre post : List Byte) (a b : Byte), checksum (pre ++ a :: post) = checksum (pre ++ b :: post) → a = b)

/-- R130, R131, R133 to R136: `assemble` gives an image when the header, every block the declared length asks for and
their checksum bytes are there. The header fields are at their places from index 101 on, and block k is the record of
the `blockLen` bytes at 219 + 257 × k, ceil(L / 256) of them, whose payload lengths sum to L. -/
def Obligations.AssembleReadsHeaderAndBlocks : Prop :=
  ∀ y : List Byte,
    let at_ (k : Nat) : Byte := y.getD k 0
    let len := (at_ 108).toNat + 256 * (at_ 109).toNat
    118 ≤ y.length → (∀ k, k < blocksFor len → 219 + 257 * k + blockLen len k < y.length) →
    ∃ hdr blocks, assemble y = .image hdr blocks ∧
      (hdr.name = (y.drop 101).take 5 ∧ hdr.id = at_ 106 ∧ hdr.fileType = at_ 107 ∧ hdr.length.toNat = len ∧
        hdr.load.toNat = (at_ 110).toNat + 256 * (at_ 111).toNat ∧
        hdr.go.toNat = (at_ 112).toNat + 256 * (at_ 113).toNat ∧
        hdr.cksum.computed = checksum ((y.drop 101).take 16) ∧ hdr.cksum.stored = at_ 117 ∧
        hdr.cksum.ok = (hdr.cksum.computed == hdr.cksum.stored)) ∧
      blocks.length = blocksFor len ∧ (blocks.map (fun b => b.length)).sum = len ∧
      ∀ (k : Nat) (b : BlockEntry), blocks[k]? = some b →
        b.offset = 219 + 257 * k ∧ b.length = blockLen len k ∧
        b.computed = checksum ((y.drop (219 + 257 * k)).take (blockLen len k)) ∧
        b.stored = at_ (219 + 257 * k + blockLen len k) ∧ b.ok = (b.computed == b.stored)

/-- R135: the stream is truncated at the header, error index 0, exactly when it has fewer than 118 bytes; else at block k,
error index k + 1, for the first k whose payload or checksum byte is missing. R138: the records made before it are those of
blocks 0 to k - 1. -/
def Obligations.AssembleReportsTheFirstMissingBytes : Prop :=
  ∀ y : List Byte,
    let len := (y.getD 108 0).toNat + 256 * (y.getD 109 0).toNat
    (y.length < 118 → assemble y = .truncated 0 []) ∧
    (∀ k, 118 ≤ y.length → k < blocksFor len → y.length ≤ 219 + 257 * k + blockLen len k →
      (∀ j, j < k → 219 + 257 * j + blockLen len j < y.length) →
      ∃ blocks, assemble y = .truncated (k + 1) blocks ∧ blocks.length = k ∧
        ∀ (j : Nat) (b : BlockEntry), blocks[j]? = some b →
          b.offset = 219 + 257 * j ∧ b.length = blockLen len j ∧
          b.computed = checksum ((y.drop (219 + 257 * j)).take (blockLen len j)) ∧
          b.stored = y.getD (219 + 257 * j + blockLen len j) 0 ∧ b.ok = (b.computed == b.stored))

/-- R138, where ASSEMBLE has its effect: a byte count that fits and a byte stream that holds an image. The records go to
BLK, the header and the counts to their registers, IMAGE_VALID is set, and nothing else changes but what completion
writes. A failed verdict is no error (R149). -/
def Obligations.AssembleResult : Prop :=
  ∀ (s : State) (hdr : Header) (blocks : List BlockEntry),
    s.regs.byteCount.toNat ≤ s.params.maxSamples →
    assemble ((List.range s.regs.byteCount.toNat).map s.byte) = .image hdr blocks →
    exec .assemble s = .next { s with
      pending := none
      mem := { s.mem with blk := Buf.writePrefix s.mem.blk blocks }
      regs := { s.regs with
        status := { s.regs.status with busy := false, done := true, imageValid := true }
        hdrNameLo := hdr.name.getD 3 0 ++ hdr.name.getD 2 0 ++ hdr.name.getD 1 0 ++ hdr.name.getD 0 0
        hdrNameHi := hdr.name.getD 4 0, hdrId := hdr.id, hdrType := hdr.fileType, hdrLength := hdr.length
        hdrLoad := hdr.load, hdrGo := hdr.go, hdrCksum := hdr.cksum
        blockCount := BitVec.ofNat 9 blocks.length
        blockFailCount := BitVec.ofNat 9 (blocks.filter (fun b => b.ok = false)).length } }

/-- R126, R135, R138: ASSEMBLE raises BAD_CONFIG 6 when BYTE_COUNT exceeds MAX_SAMPLES, else TRUNCATED where bytes are
missing; either way the image registers are 0, IMAGE_VALID = 0, and BLK holds the records made before. -/
def Obligations.AssembleErrors : Prop :=
  ∀ s : State,
    let raised (code : BitVec 4) (index : Word) (blocks : List BlockEntry) : State := { s with
      pending := none
      mem := { s.mem with blk := Buf.writePrefix s.mem.blk blocks }
      regs := { s.regs with
        status := { s.regs.status with busy := false, done := true, err := true, errCode := code, imageValid := false }
        errIndex := index, errFreq := 0, errCtx := 0, errCtxLen := 0
        hdrNameLo := 0, hdrNameHi := 0, hdrId := 0, hdrType := 0, hdrLength := 0, hdrLoad := 0, hdrGo := 0
        hdrCksum := { computed := 0, stored := 0, ok := false }, blockCount := 0, blockFailCount := 0 } }
    (s.params.maxSamples < s.regs.byteCount.toNat → exec .assemble s = .next (raised 8 6 [])) ∧
    (∀ (e : Nat) (blocks : List BlockEntry), s.regs.byteCount.toNat ≤ s.params.maxSamples →
      assemble ((List.range s.regs.byteCount.toNat).map s.byte) = .truncated e blocks →
      exec .assemble s = .next (raised 7 (BitVec.ofNat 32 e) blocks))

/-- Frame of ASSEMBLE (R54, R138, R152): only the header registers, the block counts, IMAGE_VALID, the completion fields of
STATUS and the ERR_* registers may change, and of the buffers only BLK, below BLOCK_COUNT or, after TRUNCATED at block k,
below k. -/
def Obligations.AssembleFrame : Prop :=
  ∀ s t : State, exec .assemble s = .next t →
    s.SameOutside t ∧ s.regs.status.CompletedFrom t.regs.status ∧
    t.regs.status.histValid = s.regs.status.histValid ∧
    t.regs = { s.regs with
      status := t.regs.status, errIndex := t.regs.errIndex, errFreq := t.regs.errFreq, errCtx := t.regs.errCtx
      errCtxLen := t.regs.errCtxLen, hdrNameLo := t.regs.hdrNameLo, hdrNameHi := t.regs.hdrNameHi
      hdrId := t.regs.hdrId, hdrType := t.regs.hdrType, hdrLength := t.regs.hdrLength, hdrLoad := t.regs.hdrLoad
      hdrGo := t.regs.hdrGo, hdrCksum := t.regs.hdrCksum, blockCount := t.regs.blockCount
      blockFailCount := t.regs.blockFailCount } ∧
    t.mem = { s.mem with blk := t.mem.blk } ∧
    (∀ k, t.regs.blockCount.toNat ≤ k → ¬ (t.regs.status.errCode = 7 ∧ k + 1 < t.regs.errIndex.toNat) →
      t.blk k = s.blk k)

/-! ## DECODE (R145, R146) -/

/-- R145, R146: from a state an acceptance has left (no report, HIST_VALID = 0), with a sample count that fits and a sample
rate, DECODE does what the pure function `decode` does with the core's inputs: with an image, the state holds its header and
block records with every checksum (R136), its byte stream, the ProgramImage these make (R43) and the histogram, and no
error; with an error, it holds that error's code and report, no image, and the histogram if one was built. -/
def Obligations.DecodeRefinesThePureDecoder : Prop :=
  ∀ s : State, s.regs.status.err = false → s.regs.status.histValid = false →
    s.regs.sampleCount.toNat ≤ s.params.maxSamples → s.regs.sampleRate ≠ 0 →
    ∃ t, exec .decode s = .next t ∧ t.pending = none ∧ t.regs.status.busy = false ∧ t.regs.status.done = true ∧
      match decodeSamples s.regs.format ((List.range s.regs.sampleCount.toNat).map s.samp) s.regs.sampleRate.toNat
        s.regs.silenceThr.toNat with
      | .image hdr blocks y h =>
        t.regs.status.err = false ∧ t.regs.header = hdr ∧ t.blockEntries = blocks ∧
          (List.range t.regs.byteCount.toNat).map t.byte = y ∧ t.programImage = some (imageOf y hdr blocks) ∧
          t.regs.status.histValid = true ∧ t.histEntries = h
      | .error e h =>
        t.regs.status.err = true ∧ t.regs.status.errCode = e.code ∧ t.regs.errIndex = e.report.index ∧
          t.regs.errFreq = e.report.freq ∧ t.regs.errCtx = e.report.ctx ∧ t.regs.errCtxLen = e.report.ctxLen ∧
          t.programImage = none ∧ t.regs.status.histValid = h.isSome ∧ (∀ hs, h = some hs → t.histEntries = hs)

/-- R146, R156: the checks DECODE makes before its first stage, in their order, with every output count 0; and from a state
an acceptance has left, the only BAD_CONFIG it ever reports are 1 and 2. -/
def Obligations.DecodeConfigurationErrors : Prop :=
  (∀ s : State,
    let raised (code : BitVec 4) (index : Word) : State := { s with
      pending := none
      regs := { s.regs with
        status := { s.regs.status with busy := false, done := true, err := true, errCode := code, imageValid := false }
        errIndex := index, errFreq := 0, errCtx := 0, errCtxLen := 0
        trimStart := 0, trimLen := 0, xingCount := 0, estTotal := 0, histCount := 0, baud := 0, symCount := 0
        preambleLen := 0, bitCount := 0, byteCount := 0
        hdrNameLo := 0, hdrNameHi := 0, hdrId := 0, hdrType := 0, hdrLength := 0, hdrLoad := 0, hdrGo := 0
        hdrCksum := { computed := 0, stored := 0, ok := false }, blockCount := 0, blockFailCount := 0 } }
    (s.regs.format.channels ≠ 1 ∨ s.regs.format.compressed = true → exec .decode s = .next (raised 1 0)) ∧
    (s.regs.format.channels = 1 → s.regs.format.compressed = false →
      s.params.maxSamples < s.regs.sampleCount.toNat → exec .decode s = .next (raised 8 1)) ∧
    (s.regs.format.channels = 1 → s.regs.format.compressed = false →
      s.regs.sampleCount.toNat ≤ s.params.maxSamples → s.regs.sampleRate = 0 →
      exec .decode s = .next (raised 8 2))) ∧
  (∀ s t : State, s.regs.status.errCode = 0 → exec .decode s = .next t → t.regs.status.errCode = 8 →
    t.regs.errIndex = 1 ∨ t.regs.errIndex = 2)

/-- Frame of DECODE (R45, R54, R146, R152): the host's registers, SAMP and everything outside the core's outputs stay; of the
other buffers, elements no stage writes stay: XING, HIST and BYTE from their counts on; SYM from SYM_COUNT or, after
UNIDENTIFIED_TONE, from ERR_INDEX on; BIT from BIT_COUNT or, after INVALID_SEQUENCE, from SYM_COUNT on; BLK from BLOCK_COUNT
or, after TRUNCATED at block k, from k on, so that a DECODE that ends before ASSEMBLE leaves BLK as it was. -/
def Obligations.DecodeFrame : Prop :=
  ∀ s t : State, exec .decode s = .next t →
    s.SameOutside t ∧ s.regs.status.CompletedFrom t.regs.status ∧
    t.regs.irqEn = s.regs.irqEn ∧ t.regs.sampleRate = s.regs.sampleRate ∧ t.regs.format = s.regs.format ∧
    t.regs.sampleCount = s.regs.sampleCount ∧ t.regs.silenceThr = s.regs.silenceThr ∧
    t.mem.samp = s.mem.samp ∧
    (∀ k, t.regs.xingCount.toNat ≤ k → t.xing k = s.xing k) ∧
    (∀ k, t.regs.histCount.toNat ≤ k → t.hist k = s.hist k) ∧
    (∀ k, t.regs.symCount.toNat ≤ k → ¬ (t.regs.status.errCode = 4 ∧ k < t.regs.errIndex.toNat) →
      t.sym k = s.sym k) ∧
    (∀ k, t.regs.bitCount.toNat ≤ k → ¬ (t.regs.status.errCode = 5 ∧ k < t.regs.symCount.toNat) →
      t.bit k = s.bit k) ∧
    (∀ k, t.regs.byteCount.toNat ≤ k → t.byte k = s.byte k) ∧
    (∀ k, t.regs.blockCount.toNat ≤ k → ¬ (t.regs.status.errCode = 7 ∧ k + 1 < t.regs.errIndex.toNat) →
      t.blk k = s.blk k)

/-- R152: from the state an acceptance of it leaves, a stage command or DECODE ends with IMAGE_VALID = 1 only if it ended
without a fatal error, and only ASSEMBLE and DECODE do. -/
def Obligations.ImageValidOnlyWithoutError : Prop :=
  ∀ (s t : State) (v : Word), decodeCmd v ∈ [Instr.decode, .extract, .classify, .bitdec, .frame, .assemble] →
    exec (decodeCmd v) (s.accept v) = .next t → t.regs.status.imageValid = true →
    t.regs.status.err = false ∧ t.regs.status.errCode = 0 ∧ (decodeCmd v = .assemble ∨ decodeCmd v = .decode)

/-! ## Invariants -/

/-- The reset state meets every invariant below. -/
def Obligations.ResetStateMeetsTheInvariants : Prop :=
  State.reset.mem.wf ∧ State.reset.ProtocolInv ∧ State.reset.ResetInv ∧ State.reset.DataInv ∧ State.reset.HistInv ∧
    State.reset.ImageInv

/-- Every step keeps the buffers in their canonical form. -/
def Obligations.StepKeepsBuffersCanonical : Prop :=
  ∀ s t : State, s.mem.wf → step s = .next t → t.mem.wf

/-- R29, R40, R53, R139, R141: every step keeps the command protocol, and (R162) a core under reset in its reset state. -/
def Obligations.StepKeepsTheCommandProtocol : Prop :=
  ∀ s t : State, s.ProtocolInv → s.ResetInv → step s = .next t → t.ProtocolInv ∧ t.ResetInv

/-- R9, R33, R44, R46, R50, R51, R93: every step keeps the buffers within their capacities and bounds, and XING[0 ..
XING_COUNT) written and in order; and no step changes a parameter. -/
def Obligations.StepKeepsTheDataInBounds : Prop :=
  ∀ s t : State, s.DataInv → step s = .next t → t.DataInv ∧ t.params = s.params

/-- R29, R42, R102, R129, R134: every step keeps what HIST_VALID and IMAGE_VALID say true. -/
def Obligations.StepKeepsTheValidityFlagsTrue : Prop :=
  (∀ s t : State, s.HistInv → step s = .next t → t.HistInv) ∧
  (∀ s t : State, s.ImageInv → step s = .next t → t.ImageInv)

/-! ## The exact error value (R106, R145) -/

/-- R106: the first estimate of at most 450 Hz is an error value that carries its index and the estimate itself, in CLASSIFY
and in the pure `decode` alike; the registers report the index and the floor, and the histogram stays valid. -/
def Obligations.UnidentifiedToneIsReportedExactly : Prop :=
  ∀ (es : List Freq) (b : Baud) (j : Nat) (f : Freq),
    inferBaud (histogram es) = .baud b → es[j]? = some f → f.value ≤ 450 →
    (∀ (i : Nat) (g : Freq), i < j → es[i]? = some g → 450 < g.value) →
    (∀ s : State, s.regs.sampleRate ≠ 0 →
      estimates s.regs.sampleRate.toNat ((List.range s.regs.xingCount.toNat).map s.xing) = .ok es →
      ∃ u, classifyBody s = .raised u (.unidentifiedTone j f) ∧
        ∃ t, exec .classify s = .next t ∧ t.regs.status.err = true ∧ t.regs.status.errCode = 4 ∧
          t.regs.errIndex.toNat = j ∧ (t.regs.errFreq.toNat : Int) = ⌊f.value⌋ ∧
          t.regs.status.histValid = true ∧ t.histEntries = histogram es) ∧
    (∀ (fmt : Format) (samples : List Int) (r threshold : Nat), fmt.channels = 1 → fmt.compressed = false →
      estimates r (crossings (trim samples threshold).2) = .ok es →
      decodeSamples fmt samples r threshold = .error (.unidentifiedTone j f) (some (histogram es)))
end

