-- ==== Sys2Proof/Laws/Addresses.lean ====
section
/-! SUPPORT. Which address names what (R58, R60, R61). -/

namespace Sys2Proof.Machine

theorem aligned_iff (a : Word) : aligned a = true ↔ a.toNat % 4 = 0 := by
  simp [aligned, ← BitVec.toNat_inj, BitVec.extractLsb'_toNat]

@[simp] theorem targetOf_regAddr (p : Params) (r : Reg) : targetOf p (regAddr r) = .reg r := by cases r <;> rfl

@[simp] theorem aligned_regAddr (r : Reg) : aligned (regAddr r) = true := by cases r <;> rfl

/-- The offset of a register found at an offset. -/
theorem offset_of_ofOffset {off : Nat} {r : Reg} (h : Reg.ofOffset off = some r) : r.offset = off := by
  simpa using List.find?_some h

/-- No register stands from offset 0x088 on. -/
theorem ofOffset_eq_none {off : Nat} (h : 0x088 ≤ off) : Reg.ofOffset off = none := by
  simp [Reg.ofOffset, allRegs, Reg.offset]; omega

theorem windowStride_pos (w : Window) : 0 < windowStride w := by cases w <;> decide

/-- An address in the 256 MiB region of a window is in that window. -/
theorem windowOf_eq_some {a : Word} {w : Window} (h1 : windowBase w ≤ a.toNat)
    (h2 : a.toNat < windowBase w + 0x10000000) : windowOf a = some w := by
  have h : (a.extractLsb' 28 4).toNat = windowBase w / 2 ^ 28 := by
    simp only [BitVec.extractLsb'_toNat, Nat.shiftRight_eq_div_pow]
    cases w <;> simp only [windowBase] at * <;> omega
  unfold windowOf
  rw [h]
  cases w <;> rfl

/-- Outside the seven regions there is no window. -/
theorem windowOf_eq_none {a : Word} (h : a.toNat < 0x10000000 ∨ 0x80000000 ≤ a.toNat) : windowOf a = none := by
  have h1 := a.isLt
  have h2 : (a.extractLsb' 28 4).toNat = a.toNat / 2 ^ 28 := by
    simp only [BitVec.extractLsb'_toNat, Nat.shiftRight_eq_div_pow]; omega
  unfold windowOf
  rw [h2]
  split <;> first | omega | rfl

theorem windowCapacity_le {p : Params} (hp : p.Legal) (w : Window) : windowCapacity p w ≤ 2 ^ 24 := by
  obtain ⟨_, _, _, h, _⟩ := hp
  cases w <;> simp only [windowCapacity, blockTableSize] <;> omega

/-- No element address wraps (R60). -/
theorem elementAddr_toNat {p : Params} (hp : p.Legal) {w : Window} {k f : Nat} (hk : k < windowCapacity p w)
    (hf : 4 * f < windowStride w) :
    (elementAddr w k f).toNat = windowBase w + windowStride w * k + 4 * f := by
  have hc := windowCapacity_le hp w
  simp only [elementAddr, BitVec.toNat_ofNat]
  apply Nat.mod_eq_of_lt
  cases w <;> simp only [windowBase, windowStride] at * <;> omega

/-- The address of word `f` of element `k` names that word (R60). -/
theorem targetOf_elementAddr {p : Params} (hp : p.Legal) {w : Window} {k f : Nat} (hk : k < windowCapacity p w)
    (hf : 4 * f < windowStride w) : targetOf p (elementAddr w k f) = .element w k f := by
  have hc := windowCapacity_le hp w
  have hn := elementAddr_toNat hp hk hf
  have hb : 0x1000 ≤ windowBase w := by cases w <;> simp [windowBase]
  have hw : windowOf (elementAddr w k f) = some w := by
    apply windowOf_eq_some
    · omega
    · rw [hn]; cases w <;> simp only [windowStride] at * <;> omega
  have e1 : (windowBase w + windowStride w * k + 4 * f - windowBase w) / windowStride w = k := by
    cases w <;> simp only [windowStride] at * <;> omega
  have e2 : (windowBase w + windowStride w * k + 4 * f - windowBase w) % windowStride w / 4 = f := by
    cases w <;> simp only [windowStride] at * <;> omega
  unfold targetOf
  rw [if_neg (by omega), hw]
  simp only [hn, e1, e2, if_pos hk]

theorem aligned_elementAddr {p : Params} (hp : p.Legal) {w : Window} {k f : Nat} (hk : k < windowCapacity p w)
    (hf : 4 * f < windowStride w) : aligned (elementAddr w k f) = true := by
  rw [aligned_iff, elementAddr_toNat hp hk hf]
  cases w <;> simp only [windowBase, windowStride] <;> omega

end Sys2Proof.Machine
end

