-- ==== Sys2Proof/Laws/Buffer.lean ====
section
/-! SUPPORT. What the buffer operations do, for every list of entries, and that each keeps the canonical form. -/

namespace Sys2Proof.Machine

section
variable {α : Type}

@[simp] theorem seek_nil (k : Nat) : Buf.seek ([] : Buf α) k = [] := rfl

theorem seek_cons (e : Nat × α) (b : Buf α) (k : Nat) :
    Buf.seek (e :: b) k = if e.1 < k then Buf.seek b k else e :: b := by
  simp [Buf.seek, List.dropWhile_cons]

@[simp] theorem read?_nil (k : Nat) : Buf.read? ([] : Buf α) k = none := rfl

theorem read?_cons (e : Nat × α) (b : Buf α) (k : Nat) :
    Buf.read? (e :: b) k = if e.1 < k then Buf.read? b k else if e.1 = k then some e.2 else none := by
  by_cases h : e.1 < k <;> simp [Buf.read?, seek_cons, h]

/-- Skipping to a later index after an earlier one is skipping to the later one. -/
theorem seek_seek (b : Buf α) {j k : Nat} (h : j ≤ k) : Buf.seek (Buf.seek b j) k = Buf.seek b k := by
  induction b with
  | nil => rfl
  | cons e b ih =>
    by_cases hj : e.1 < j
    · simp [seek_cons, hj, ih, Nat.lt_of_lt_of_le hj h]
    · simp [seek_cons, hj]

theorem read?_seek (b : Buf α) {j k : Nat} (h : j ≤ k) : Buf.read? (Buf.seek b j) k = Buf.read? b k := by
  simp [Buf.read?, seek_seek b h]

/-- An element just written reads as the value written. -/
theorem read?_write_same (b : Buf α) (k : Nat) (v : α) : Buf.read? (Buf.write b k v) k = some v := by
  unfold Buf.write
  induction b with
  | nil => simp [read?_cons]
  | cons e b ih =>
    by_cases h : e.1 < k
    · simp only [List.takeWhile_cons, h, decide_true, if_true, List.cons_append, read?_cons]
      have : Buf.seek (e :: b) (k + 1) = Buf.seek b (k + 1) := by simp [seek_cons, Nat.lt_succ_of_lt h]
      rw [this]; exact ih
    · simp [h, read?_cons]

/-- Every other element reads as before a write. -/
theorem read?_write_other (b : Buf α) {k j : Nat} (v : α) (h : j ≠ k) :
    Buf.read? (Buf.write b k v) j = Buf.read? b j := by
  unfold Buf.write
  induction b with
  | nil => by_cases hk : k < j <;> simp [read?_cons, hk, Ne.symm h]
  | cons e b ih =>
    by_cases he : e.1 < k
    · have hs : Buf.seek (e :: b) (k + 1) = Buf.seek b (k + 1) := by simp [seek_cons, Nat.lt_succ_of_lt he]
      simp only [List.takeWhile_cons, he, decide_true, if_true, List.cons_append, hs, read?_cons]
      rw [ih]
    · simp only [List.takeWhile_cons, he, decide_false, Bool.false_eq_true, if_false, List.nil_append, read?_cons]
      by_cases hk : k < j
      · rw [if_pos hk, read?_seek _ hk, read?_cons]
      · have h1 : ¬ e.1 < j := by omega
        have h2 : e.1 ≠ j := by omega
        simp [hk, Ne.symm h, h1, h2]

/-- Reading a run of elements is reading each of them. -/
theorem readFrom_eq (d : Nat → α) (b : Buf α) (k n : Nat) :
    Buf.readFrom d b k n = (List.range n).map (fun i => (Buf.read? b (k + i)).getD (d (k + i))) := by
  induction n generalizing b k with
  | zero => rfl
  | succ n ih =>
    simp only [Buf.readFrom, ih, List.range_succ_eq_map, List.map_cons, List.map_map, Nat.add_zero,
      read?_seek b (Nat.le_refl k), List.cons.injEq, true_and]
    apply List.map_congr_left
    intro i _
    simp only [Function.comp]
    rw [read?_seek b (by omega)]
    congr 2 <;> omega

@[simp] theorem readFrom_length (d : Nat → α) (b : Buf α) (k n : Nat) : (Buf.readFrom d b k n).length = n := by
  simp [readFrom_eq]

theorem entriesFrom_read?_append (k : Nat) (vs : List α) (b : Buf α) (j : Nat) :
    Buf.read? (Buf.entriesFrom k vs ++ b) j =
      if j < k then (if vs = [] then Buf.read? b j else none)
      else if h : j - k < vs.length then some vs[j - k] else Buf.read? b j := by
  induction vs generalizing k with
  | nil => simp [Buf.entriesFrom]
  | cons v vs ih =>
    rw [Buf.entriesFrom, List.cons_append, read?_cons, ih]
    by_cases h1 : j < k
    · simp [h1, show ¬ k < j by omega, show k ≠ j by omega]
    · by_cases h2 : k = j
      · subst h2; simp
      · have h3 : k < j := by omega
        have h4 : ¬ j < k + 1 := by omega
        obtain ⟨m, hm⟩ : ∃ m, j - k = m + 1 := ⟨j - k - 1, by omega⟩
        have h5 : j - (k + 1) = m := by omega
        simp [h1, h3, h4, hm, h5]

/-- After a sequence is written from element 0 on, an element it covers reads as its value there, and every other element
reads as before. -/
theorem read?_writePrefix (b : Buf α) (vs : List α) (j : Nat) :
    Buf.read? (Buf.writePrefix b vs) j = if h : j < vs.length then some vs[j] else Buf.read? b j := by
  rw [Buf.writePrefix, entriesFrom_read?_append]
  by_cases h : j < vs.length
  · simp [h]
  · simp [h, read?_seek b (Nat.le_of_not_lt h)]

/-! ## The canonical form -/

theorem wf_seek {b : Buf α} (h : Buf.Wf b) (k : Nat) : Buf.Wf (Buf.seek b k) :=
  h.sublist (List.dropWhile_sublist _)

/-- In canonical form, what is left from index `k` on has no entry below `k`. -/
theorem le_of_mem_seek {b : Buf α} (h : Buf.Wf b) {k : Nat} {e : Nat × α} (he : e ∈ Buf.seek b k) : k ≤ e.1 := by
  induction b with
  | nil => simp at he
  | cons x b ih =>
    rw [seek_cons] at he
    split at he
    · exact ih (List.Pairwise.of_cons h) he
    · rename_i hx
      rcases List.mem_cons.1 he with rfl | hm
      · omega
      · have := List.rel_of_pairwise_cons h hm; omega

theorem wf_write {b : Buf α} (h : Buf.Wf b) (k : Nat) (v : α) : Buf.Wf (Buf.write b k v) := by
  have ht : ∀ e ∈ b.takeWhile (fun e => e.1 < k), e.1 < k := fun e he => by
    simpa using List.mem_takeWhile_imp he
  refine List.pairwise_append.2 ⟨h.sublist (List.takeWhile_sublist _), ?_, ?_⟩
  · exact List.pairwise_cons.2 ⟨fun e he => le_of_mem_seek h he, wf_seek h _⟩
  · intro x hx y hy
    have hxk := ht x hx
    rcases List.mem_cons.1 hy with rfl | hm
    · exact hxk
    · have := le_of_mem_seek h hm; omega

theorem mem_entriesFrom {k : Nat} {vs : List α} {e : Nat × α} (he : e ∈ Buf.entriesFrom k vs) :
    k ≤ e.1 ∧ e.1 < k + vs.length ∧ e.2 ∈ vs := by
  induction vs generalizing k with
  | nil => simp [Buf.entriesFrom] at he
  | cons v vs ih =>
    rcases List.mem_cons.1 he with rfl | hm
    · simp
    · have := ih hm; simp only [List.length_cons, List.mem_cons]; refine ⟨by omega, by omega, Or.inr this.2.2⟩

theorem wf_entriesFrom (k : Nat) (vs : List α) : Buf.Wf (Buf.entriesFrom k vs) := by
  induction vs generalizing k with
  | nil => exact List.Pairwise.nil
  | cons v vs ih => exact List.pairwise_cons.2 ⟨fun e he => by have := mem_entriesFrom he; omega, ih _⟩

theorem wf_writePrefix {b : Buf α} (h : Buf.Wf b) (vs : List α) : Buf.Wf (Buf.writePrefix b vs) := by
  refine List.pairwise_append.2 ⟨wf_entriesFrom 0 vs, wf_seek h _, fun x hx y hy => ?_⟩
  have := mem_entriesFrom hx
  have := le_of_mem_seek h hy
  omega

/-- Where the entries of a buffer come from after one write. -/
theorem mem_write {b : Buf α} {k : Nat} {v : α} {e : Nat × α} (he : e ∈ Buf.write b k v) : e ∈ b ∨ e = (k, v) := by
  rcases List.mem_append.1 he with h | h
  · exact Or.inl (List.takeWhile_subset _ h)
  · rcases List.mem_cons.1 h with rfl | h
    · exact Or.inr rfl
    · exact Or.inl (List.dropWhile_subset _ h)

/-- Where the entries of a buffer come from after a sequence is written to it. -/
theorem mem_writePrefix {b : Buf α} {vs : List α} {e : Nat × α} (he : e ∈ Buf.writePrefix b vs) :
    e ∈ b ∨ (e.1 < vs.length ∧ e.2 ∈ vs) := by
  rcases List.mem_append.1 he with h | h
  · have := mem_entriesFrom h; exact Or.inr ⟨by omega, this.2.2⟩
  · exact Or.inl (List.dropWhile_subset _ h)

/-- What an element holds is one of the entries. -/
theorem mem_of_read? {b : Buf α} {k : Nat} {v : α} (h : Buf.read? b k = some v) : (k, v) ∈ b := by
  induction b with
  | nil => simp at h
  | cons e b ih =>
    rw [read?_cons] at h
    split at h
    · exact List.mem_cons_of_mem _ (ih h)
    · split at h
      · rename_i _ hk; cases h; subst hk; exact List.mem_cons_self
      · cases h

end

/-- The empty buffers are in canonical form. -/
theorem wf_empty : Memory.empty.wf := by simp [Memory.empty, Memory.wf, Buf.Wf]

/-! ## Runs of elements as the element reads give them -/

theorem samples_eq (s : State) (n : Nat) : s.samples n = (List.range n).map s.samp := by
  simp [State.samples, readFrom_eq, State.samp]
theorem xings_eq (s : State) (n : Nat) : s.xings n = (List.range n).map s.xing := by
  simp [State.xings, readFrom_eq, State.xing]
theorem syms_eq (s : State) (n : Nat) : s.syms n = (List.range n).map s.sym := by
  simp [State.syms, readFrom_eq, State.sym]
theorem bits_eq (s : State) (n : Nat) : s.bits n = (List.range n).map s.bit := by
  simp [State.bits, readFrom_eq, State.bit]
theorem bytes_eq (s : State) (n : Nat) : s.bytes n = (List.range n).map s.byte := by
  simp [State.bytes, readFrom_eq, State.byte]

@[simp] theorem samples_length (s : State) (n : Nat) : (s.samples n).length = n := by simp [State.samples]
@[simp] theorem xings_length (s : State) (n : Nat) : (s.xings n).length = n := by simp [State.xings]
@[simp] theorem syms_length (s : State) (n : Nat) : (s.syms n).length = n := by simp [State.syms]
@[simp] theorem bits_length (s : State) (n : Nat) : (s.bits n).length = n := by simp [State.bits]
@[simp] theorem bytes_length (s : State) (n : Nat) : (s.bytes n).length = n := by simp [State.bytes]

end Sys2Proof.Machine
end

