-- ==== Sys2Proof/Laws/State.lean ====
section
/-! SUPPORT. What each update of the state leaves in each field. -/

namespace Sys2Proof.Machine

@[simp] theorem setRegs_params (s : State) (r : Regs) : (s.setRegs r).params = s.params := rfl
@[simp] theorem setRegs_regs (s : State) (r : Regs) : (s.setRegs r).regs = r := rfl
@[simp] theorem setRegs_mem (s : State) (r : Regs) : (s.setRegs r).mem = s.mem := rfl
@[simp] theorem setRegs_pending (s : State) (r : Regs) : (s.setRegs r).pending = s.pending := rfl
@[simp] theorem setRegs_rst (s : State) (r : Regs) : (s.setRegs r).rst = s.rst := rfl
@[simp] theorem setRegs_inputs (s : State) (r : Regs) : (s.setRegs r).inputs = s.inputs := rfl
@[simp] theorem setRegs_replies (s : State) (r : Regs) : (s.setRegs r).replies = s.replies := rfl
@[simp] theorem setRegs_draws (s : State) (r : Regs) : (s.setRegs r).draws = s.draws := rfl
@[simp] theorem setRegs_epoch (s : State) (r : Regs) : (s.setRegs r).epoch = s.epoch := rfl

@[simp] theorem setMem_params (s : State) (m : Memory) : (s.setMem m).params = s.params := rfl
@[simp] theorem setMem_regs (s : State) (m : Memory) : (s.setMem m).regs = s.regs := rfl
@[simp] theorem setMem_mem (s : State) (m : Memory) : (s.setMem m).mem = m := rfl
@[simp] theorem setMem_pending (s : State) (m : Memory) : (s.setMem m).pending = s.pending := rfl
@[simp] theorem setMem_rst (s : State) (m : Memory) : (s.setMem m).rst = s.rst := rfl
@[simp] theorem setMem_inputs (s : State) (m : Memory) : (s.setMem m).inputs = s.inputs := rfl
@[simp] theorem setMem_replies (s : State) (m : Memory) : (s.setMem m).replies = s.replies := rfl
@[simp] theorem setMem_draws (s : State) (m : Memory) : (s.setMem m).draws = s.draws := rfl
@[simp] theorem setMem_epoch (s : State) (m : Memory) : (s.setMem m).epoch = s.epoch := rfl

@[simp] theorem setStatus_params (s : State) (t : Status) : (s.setStatus t).params = s.params := rfl
@[simp] theorem setStatus_irqEn (s : State) (t : Status) : (s.setStatus t).regs.irqEn = s.regs.irqEn := rfl
@[simp] theorem setStatus_status (s : State) (t : Status) : (s.setStatus t).regs.status = t := rfl
@[simp] theorem setStatus_sampleRate (s : State) (t : Status) :
    (s.setStatus t).regs.sampleRate = s.regs.sampleRate := rfl
@[simp] theorem setStatus_format (s : State) (t : Status) : (s.setStatus t).regs.format = s.regs.format := rfl
@[simp] theorem setStatus_sampleCount (s : State) (t : Status) :
    (s.setStatus t).regs.sampleCount = s.regs.sampleCount := rfl
@[simp] theorem setStatus_silenceThr (s : State) (t : Status) :
    (s.setStatus t).regs.silenceThr = s.regs.silenceThr := rfl
@[simp] theorem setStatus_trimStart (s : State) (t : Status) :
    (s.setStatus t).regs.trimStart = s.regs.trimStart := rfl
@[simp] theorem setStatus_trimLen (s : State) (t : Status) : (s.setStatus t).regs.trimLen = s.regs.trimLen := rfl
@[simp] theorem setStatus_xingCount (s : State) (t : Status) :
    (s.setStatus t).regs.xingCount = s.regs.xingCount := rfl
@[simp] theorem setStatus_estTotal (s : State) (t : Status) : (s.setStatus t).regs.estTotal = s.regs.estTotal := rfl
@[simp] theorem setStatus_histCount (s : State) (t : Status) :
    (s.setStatus t).regs.histCount = s.regs.histCount := rfl
@[simp] theorem setStatus_baud (s : State) (t : Status) : (s.setStatus t).regs.baud = s.regs.baud := rfl
@[simp] theorem setStatus_symCount (s : State) (t : Status) : (s.setStatus t).regs.symCount = s.regs.symCount := rfl
@[simp] theorem setStatus_preambleLen (s : State) (t : Status) :
    (s.setStatus t).regs.preambleLen = s.regs.preambleLen := rfl
@[simp] theorem setStatus_bitCount (s : State) (t : Status) : (s.setStatus t).regs.bitCount = s.regs.bitCount := rfl
@[simp] theorem setStatus_byteCount (s : State) (t : Status) :
    (s.setStatus t).regs.byteCount = s.regs.byteCount := rfl
@[simp] theorem setStatus_errIndex (s : State) (t : Status) : (s.setStatus t).regs.errIndex = s.regs.errIndex := rfl
@[simp] theorem setStatus_errFreq (s : State) (t : Status) : (s.setStatus t).regs.errFreq = s.regs.errFreq := rfl
@[simp] theorem setStatus_errCtx (s : State) (t : Status) : (s.setStatus t).regs.errCtx = s.regs.errCtx := rfl
@[simp] theorem setStatus_errCtxLen (s : State) (t : Status) :
    (s.setStatus t).regs.errCtxLen = s.regs.errCtxLen := rfl
@[simp] theorem setStatus_hdrNameLo (s : State) (t : Status) :
    (s.setStatus t).regs.hdrNameLo = s.regs.hdrNameLo := rfl
@[simp] theorem setStatus_hdrNameHi (s : State) (t : Status) :
    (s.setStatus t).regs.hdrNameHi = s.regs.hdrNameHi := rfl
@[simp] theorem setStatus_hdrId (s : State) (t : Status) : (s.setStatus t).regs.hdrId = s.regs.hdrId := rfl
@[simp] theorem setStatus_hdrType (s : State) (t : Status) : (s.setStatus t).regs.hdrType = s.regs.hdrType := rfl
@[simp] theorem setStatus_hdrLength (s : State) (t : Status) :
    (s.setStatus t).regs.hdrLength = s.regs.hdrLength := rfl
@[simp] theorem setStatus_hdrLoad (s : State) (t : Status) : (s.setStatus t).regs.hdrLoad = s.regs.hdrLoad := rfl
@[simp] theorem setStatus_hdrGo (s : State) (t : Status) : (s.setStatus t).regs.hdrGo = s.regs.hdrGo := rfl
@[simp] theorem setStatus_hdrCksum (s : State) (t : Status) : (s.setStatus t).regs.hdrCksum = s.regs.hdrCksum := rfl
@[simp] theorem setStatus_blockCount (s : State) (t : Status) :
    (s.setStatus t).regs.blockCount = s.regs.blockCount := rfl
@[simp] theorem setStatus_blockFailCount (s : State) (t : Status) :
    (s.setStatus t).regs.blockFailCount = s.regs.blockFailCount := rfl
@[simp] theorem setStatus_mem (s : State) (t : Status) : (s.setStatus t).mem = s.mem := rfl
@[simp] theorem setStatus_pending (s : State) (t : Status) : (s.setStatus t).pending = s.pending := rfl
@[simp] theorem setStatus_rst (s : State) (t : Status) : (s.setStatus t).rst = s.rst := rfl
@[simp] theorem setStatus_inputs (s : State) (t : Status) : (s.setStatus t).inputs = s.inputs := rfl
@[simp] theorem setStatus_replies (s : State) (t : Status) : (s.setStatus t).replies = s.replies := rfl
@[simp] theorem setStatus_draws (s : State) (t : Status) : (s.setStatus t).draws = s.draws := rfl
@[simp] theorem setStatus_epoch (s : State) (t : Status) : (s.setStatus t).epoch = s.epoch := rfl

@[simp] theorem reply_params (s : State) (v : Word) : (s.reply v).params = s.params := rfl
@[simp] theorem reply_regs (s : State) (v : Word) : (s.reply v).regs = s.regs := rfl
@[simp] theorem reply_mem (s : State) (v : Word) : (s.reply v).mem = s.mem := rfl
@[simp] theorem reply_pending (s : State) (v : Word) : (s.reply v).pending = s.pending := rfl
@[simp] theorem reply_rst (s : State) (v : Word) : (s.reply v).rst = s.rst := rfl
@[simp] theorem reply_inputs (s : State) (v : Word) : (s.reply v).inputs = s.inputs := rfl
@[simp] theorem reply_replies (s : State) (v : Word) : (s.reply v).replies = v :: s.replies := rfl
@[simp] theorem reply_draws (s : State) (v : Word) : (s.reply v).draws = s.draws := rfl
@[simp] theorem reply_epoch (s : State) (v : Word) : (s.reply v).epoch = s.epoch := rfl

/-! ## What each fatal error reports (R148) -/

@[simp] theorem FatalError.code_unsupportedFormat : FatalError.unsupportedFormat.code = 1 := rfl
@[simp] theorem FatalError.report_unsupportedFormat : FatalError.unsupportedFormat.report = {} := rfl
@[simp] theorem FatalError.code_faulty1200Only : FatalError.faulty1200Only.code = 2 := rfl
@[simp] theorem FatalError.report_faulty1200Only : FatalError.faulty1200Only.report = {} := rfl
@[simp] theorem FatalError.code_faultyNo1200 : FatalError.faultyNo1200.code = 3 := rfl
@[simp] theorem FatalError.report_faultyNo1200 : FatalError.faultyNo1200.report = {} := rfl
@[simp] theorem FatalError.code_unidentifiedTone (j : Nat) (f : Freq) : (FatalError.unidentifiedTone j f).code = 4 := rfl
@[simp] theorem FatalError.report_unidentifiedTone (j : Nat) (f : Freq) :
    (FatalError.unidentifiedTone j f).report =
      { index := natWord j, freq := natWord f.floor } := rfl
@[simp] theorem FatalError.code_invalidSequence (p : Nat) (ctx : List Tone) : (FatalError.invalidSequence p ctx).code = 5 := rfl
@[simp] theorem FatalError.report_invalidSequence (p : Nat) (ctx : List Tone) :
    (FatalError.invalidSequence p ctx).report =
      { index := natWord p, ctx := packContext ctx, ctxLen := BitVec.ofNat 5 ctx.length } := rfl
@[simp] theorem FatalError.code_zeroInterval (j : Nat) : (FatalError.zeroInterval j).code = 6 := rfl
@[simp] theorem FatalError.report_zeroInterval (j : Nat) :
    (FatalError.zeroInterval j).report =
      { index := natWord j } := rfl
@[simp] theorem FatalError.code_truncated (k : Nat) : (FatalError.truncated k).code = 7 := rfl
@[simp] theorem FatalError.report_truncated (k : Nat) : (FatalError.truncated k).report = { index := natWord k } := rfl
@[simp] theorem FatalError.code_badConfig (n : Nat) : (FatalError.badConfig n).code = 8 := rfl
@[simp] theorem FatalError.report_badConfig (n : Nat) : (FatalError.badConfig n).report = { index := natWord n } := rfl
@[simp] theorem FatalError.code_illegalCommand : FatalError.illegalCommand.code = 9 := rfl
@[simp] theorem FatalError.report_illegalCommand : FatalError.illegalCommand.report = {} := rfl

/-! ## Reporting, acceptance and reset -/

@[simp] theorem report_params (s : State) (r : Report) : (s.report r).params = s.params := rfl
@[simp] theorem report_irqEn (s : State) (r : Report) : (s.report r).regs.irqEn = s.regs.irqEn := rfl
@[simp] theorem report_status (s : State) (r : Report) : (s.report r).regs.status = s.regs.status := rfl
@[simp] theorem report_sampleRate (s : State) (r : Report) : (s.report r).regs.sampleRate = s.regs.sampleRate := rfl
@[simp] theorem report_format (s : State) (r : Report) : (s.report r).regs.format = s.regs.format := rfl
@[simp] theorem report_sampleCount (s : State) (r : Report) :
    (s.report r).regs.sampleCount = s.regs.sampleCount := rfl
@[simp] theorem report_silenceThr (s : State) (r : Report) : (s.report r).regs.silenceThr = s.regs.silenceThr := rfl
@[simp] theorem report_trimStart (s : State) (r : Report) : (s.report r).regs.trimStart = s.regs.trimStart := rfl
@[simp] theorem report_trimLen (s : State) (r : Report) : (s.report r).regs.trimLen = s.regs.trimLen := rfl
@[simp] theorem report_xingCount (s : State) (r : Report) : (s.report r).regs.xingCount = s.regs.xingCount := rfl
@[simp] theorem report_estTotal (s : State) (r : Report) : (s.report r).regs.estTotal = s.regs.estTotal := rfl
@[simp] theorem report_histCount (s : State) (r : Report) : (s.report r).regs.histCount = s.regs.histCount := rfl
@[simp] theorem report_baud (s : State) (r : Report) : (s.report r).regs.baud = s.regs.baud := rfl
@[simp] theorem report_symCount (s : State) (r : Report) : (s.report r).regs.symCount = s.regs.symCount := rfl
@[simp] theorem report_preambleLen (s : State) (r : Report) :
    (s.report r).regs.preambleLen = s.regs.preambleLen := rfl
@[simp] theorem report_bitCount (s : State) (r : Report) : (s.report r).regs.bitCount = s.regs.bitCount := rfl
@[simp] theorem report_byteCount (s : State) (r : Report) : (s.report r).regs.byteCount = s.regs.byteCount := rfl
@[simp] theorem report_errIndex (s : State) (r : Report) : (s.report r).regs.errIndex = r.index := rfl
@[simp] theorem report_errFreq (s : State) (r : Report) : (s.report r).regs.errFreq = r.freq := rfl
@[simp] theorem report_errCtx (s : State) (r : Report) : (s.report r).regs.errCtx = r.ctx := rfl
@[simp] theorem report_errCtxLen (s : State) (r : Report) : (s.report r).regs.errCtxLen = r.ctxLen := rfl
@[simp] theorem report_hdrNameLo (s : State) (r : Report) : (s.report r).regs.hdrNameLo = s.regs.hdrNameLo := rfl
@[simp] theorem report_hdrNameHi (s : State) (r : Report) : (s.report r).regs.hdrNameHi = s.regs.hdrNameHi := rfl
@[simp] theorem report_hdrId (s : State) (r : Report) : (s.report r).regs.hdrId = s.regs.hdrId := rfl
@[simp] theorem report_hdrType (s : State) (r : Report) : (s.report r).regs.hdrType = s.regs.hdrType := rfl
@[simp] theorem report_hdrLength (s : State) (r : Report) : (s.report r).regs.hdrLength = s.regs.hdrLength := rfl
@[simp] theorem report_hdrLoad (s : State) (r : Report) : (s.report r).regs.hdrLoad = s.regs.hdrLoad := rfl
@[simp] theorem report_hdrGo (s : State) (r : Report) : (s.report r).regs.hdrGo = s.regs.hdrGo := rfl
@[simp] theorem report_hdrCksum (s : State) (r : Report) : (s.report r).regs.hdrCksum = s.regs.hdrCksum := rfl
@[simp] theorem report_blockCount (s : State) (r : Report) : (s.report r).regs.blockCount = s.regs.blockCount := rfl
@[simp] theorem report_blockFailCount (s : State) (r : Report) :
    (s.report r).regs.blockFailCount = s.regs.blockFailCount := rfl
@[simp] theorem report_mem (s : State) (r : Report) : (s.report r).mem = s.mem := rfl
@[simp] theorem report_pending (s : State) (r : Report) : (s.report r).pending = s.pending := rfl
@[simp] theorem report_rst (s : State) (r : Report) : (s.report r).rst = s.rst := rfl
@[simp] theorem report_inputs (s : State) (r : Report) : (s.report r).inputs = s.inputs := rfl
@[simp] theorem report_replies (s : State) (r : Report) : (s.report r).replies = s.replies := rfl
@[simp] theorem report_draws (s : State) (r : Report) : (s.report r).draws = s.draws := rfl
@[simp] theorem report_epoch (s : State) (r : Report) : (s.report r).epoch = s.epoch := rfl

@[simp] theorem accept_params (s : State) (v : Word) : (s.accept v).params = s.params := rfl
@[simp] theorem accept_irqEn (s : State) (v : Word) : (s.accept v).regs.irqEn = s.regs.irqEn := rfl
@[simp] theorem accept_status (s : State) (v : Word) :
    (s.accept v).regs.status = s.regs.status.accepted (opcodeField v) (clearsImageValid (decodeCmd v)) (clearsHistValid (decodeCmd v)) := rfl
@[simp] theorem accept_sampleRate (s : State) (v : Word) : (s.accept v).regs.sampleRate = s.regs.sampleRate := rfl
@[simp] theorem accept_format (s : State) (v : Word) : (s.accept v).regs.format = s.regs.format := rfl
@[simp] theorem accept_sampleCount (s : State) (v : Word) : (s.accept v).regs.sampleCount = s.regs.sampleCount := rfl
@[simp] theorem accept_silenceThr (s : State) (v : Word) : (s.accept v).regs.silenceThr = s.regs.silenceThr := rfl
@[simp] theorem accept_trimStart (s : State) (v : Word) : (s.accept v).regs.trimStart = s.regs.trimStart := rfl
@[simp] theorem accept_trimLen (s : State) (v : Word) : (s.accept v).regs.trimLen = s.regs.trimLen := rfl
@[simp] theorem accept_xingCount (s : State) (v : Word) : (s.accept v).regs.xingCount = s.regs.xingCount := rfl
@[simp] theorem accept_estTotal (s : State) (v : Word) : (s.accept v).regs.estTotal = s.regs.estTotal := rfl
@[simp] theorem accept_histCount (s : State) (v : Word) : (s.accept v).regs.histCount = s.regs.histCount := rfl
@[simp] theorem accept_baud (s : State) (v : Word) : (s.accept v).regs.baud = s.regs.baud := rfl
@[simp] theorem accept_symCount (s : State) (v : Word) : (s.accept v).regs.symCount = s.regs.symCount := rfl
@[simp] theorem accept_preambleLen (s : State) (v : Word) : (s.accept v).regs.preambleLen = s.regs.preambleLen := rfl
@[simp] theorem accept_bitCount (s : State) (v : Word) : (s.accept v).regs.bitCount = s.regs.bitCount := rfl
@[simp] theorem accept_byteCount (s : State) (v : Word) : (s.accept v).regs.byteCount = s.regs.byteCount := rfl
@[simp] theorem accept_errIndex (s : State) (v : Word) : (s.accept v).regs.errIndex = 0 := rfl
@[simp] theorem accept_errFreq (s : State) (v : Word) : (s.accept v).regs.errFreq = 0 := rfl
@[simp] theorem accept_errCtx (s : State) (v : Word) : (s.accept v).regs.errCtx = 0 := rfl
@[simp] theorem accept_errCtxLen (s : State) (v : Word) : (s.accept v).regs.errCtxLen = 0 := rfl
@[simp] theorem accept_hdrNameLo (s : State) (v : Word) : (s.accept v).regs.hdrNameLo = s.regs.hdrNameLo := rfl
@[simp] theorem accept_hdrNameHi (s : State) (v : Word) : (s.accept v).regs.hdrNameHi = s.regs.hdrNameHi := rfl
@[simp] theorem accept_hdrId (s : State) (v : Word) : (s.accept v).regs.hdrId = s.regs.hdrId := rfl
@[simp] theorem accept_hdrType (s : State) (v : Word) : (s.accept v).regs.hdrType = s.regs.hdrType := rfl
@[simp] theorem accept_hdrLength (s : State) (v : Word) : (s.accept v).regs.hdrLength = s.regs.hdrLength := rfl
@[simp] theorem accept_hdrLoad (s : State) (v : Word) : (s.accept v).regs.hdrLoad = s.regs.hdrLoad := rfl
@[simp] theorem accept_hdrGo (s : State) (v : Word) : (s.accept v).regs.hdrGo = s.regs.hdrGo := rfl
@[simp] theorem accept_hdrCksum (s : State) (v : Word) : (s.accept v).regs.hdrCksum = s.regs.hdrCksum := rfl
@[simp] theorem accept_blockCount (s : State) (v : Word) : (s.accept v).regs.blockCount = s.regs.blockCount := rfl
@[simp] theorem accept_blockFailCount (s : State) (v : Word) :
    (s.accept v).regs.blockFailCount = s.regs.blockFailCount := rfl
@[simp] theorem accept_mem (s : State) (v : Word) : (s.accept v).mem = s.mem := rfl
@[simp] theorem accept_pending (s : State) (v : Word) : (s.accept v).pending = some v := rfl
@[simp] theorem accept_rst (s : State) (v : Word) : (s.accept v).rst = s.rst := rfl
@[simp] theorem accept_inputs (s : State) (v : Word) : (s.accept v).inputs = s.inputs := rfl
@[simp] theorem accept_replies (s : State) (v : Word) : (s.accept v).replies = s.replies := rfl
@[simp] theorem accept_draws (s : State) (v : Word) : (s.accept v).draws = s.draws := rfl
@[simp] theorem accept_epoch (s : State) (v : Word) : (s.accept v).epoch = s.epoch := rfl

@[simp] theorem hardwareReset_params (s : State) : (s.hardwareReset).params = s.params := rfl
@[simp] theorem hardwareReset_regs (s : State) : (s.hardwareReset).regs = Regs.reset s.params := rfl
@[simp] theorem hardwareReset_mem (s : State) : (s.hardwareReset).mem = Memory.empty := rfl
@[simp] theorem hardwareReset_pending (s : State) : (s.hardwareReset).pending = none := rfl
@[simp] theorem hardwareReset_rst (s : State) : (s.hardwareReset).rst = s.rst := rfl
@[simp] theorem hardwareReset_inputs (s : State) : (s.hardwareReset).inputs = s.inputs := rfl
@[simp] theorem hardwareReset_replies (s : State) : (s.hardwareReset).replies = s.replies := rfl
@[simp] theorem hardwareReset_draws (s : State) : (s.hardwareReset).draws = s.draws := rfl
@[simp] theorem hardwareReset_epoch (s : State) : (s.hardwareReset).epoch = s.epoch + 1 := rfl

end Sys2Proof.Machine
end

