-- ==== Sys2Proof/Laws/Updates.lean ====
section
/-! SUPPORT. What each stage's register updates leave in each field. -/

namespace Sys2Proof.Machine

@[simp] theorem setExtracted_params (s : State) (a n c : Nat) : (s.setExtracted a n c).params = s.params := rfl
@[simp] theorem setExtracted_irqEn (s : State) (a n c : Nat) : (s.setExtracted a n c).regs.irqEn = s.regs.irqEn := rfl
@[simp] theorem setExtracted_status (s : State) (a n c : Nat) :
    (s.setExtracted a n c).regs.status = s.regs.status := rfl
@[simp] theorem setExtracted_sampleRate (s : State) (a n c : Nat) :
    (s.setExtracted a n c).regs.sampleRate = s.regs.sampleRate := rfl
@[simp] theorem setExtracted_format (s : State) (a n c : Nat) :
    (s.setExtracted a n c).regs.format = s.regs.format := rfl
@[simp] theorem setExtracted_sampleCount (s : State) (a n c : Nat) :
    (s.setExtracted a n c).regs.sampleCount = s.regs.sampleCount := rfl
@[simp] theorem setExtracted_silenceThr (s : State) (a n c : Nat) :
    (s.setExtracted a n c).regs.silenceThr = s.regs.silenceThr := rfl
@[simp] theorem setExtracted_trimStart (s : State) (a n c : Nat) :
    (s.setExtracted a n c).regs.trimStart = natWord a := rfl
@[simp] theorem setExtracted_trimLen (s : State) (a n c : Nat) :
    (s.setExtracted a n c).regs.trimLen = natWord n := rfl
@[simp] theorem setExtracted_xingCount (s : State) (a n c : Nat) :
    (s.setExtracted a n c).regs.xingCount = natWord c := rfl
@[simp] theorem setExtracted_estTotal (s : State) (a n c : Nat) :
    (s.setExtracted a n c).regs.estTotal = s.regs.estTotal := rfl
@[simp] theorem setExtracted_histCount (s : State) (a n c : Nat) :
    (s.setExtracted a n c).regs.histCount = s.regs.histCount := rfl
@[simp] theorem setExtracted_baud (s : State) (a n c : Nat) : (s.setExtracted a n c).regs.baud = s.regs.baud := rfl
@[simp] theorem setExtracted_symCount (s : State) (a n c : Nat) :
    (s.setExtracted a n c).regs.symCount = s.regs.symCount := rfl
@[simp] theorem setExtracted_preambleLen (s : State) (a n c : Nat) :
    (s.setExtracted a n c).regs.preambleLen = s.regs.preambleLen := rfl
@[simp] theorem setExtracted_bitCount (s : State) (a n c : Nat) :
    (s.setExtracted a n c).regs.bitCount = s.regs.bitCount := rfl
@[simp] theorem setExtracted_byteCount (s : State) (a n c : Nat) :
    (s.setExtracted a n c).regs.byteCount = s.regs.byteCount := rfl
@[simp] theorem setExtracted_errIndex (s : State) (a n c : Nat) :
    (s.setExtracted a n c).regs.errIndex = s.regs.errIndex := rfl
@[simp] theorem setExtracted_errFreq (s : State) (a n c : Nat) :
    (s.setExtracted a n c).regs.errFreq = s.regs.errFreq := rfl
@[simp] theorem setExtracted_errCtx (s : State) (a n c : Nat) :
    (s.setExtracted a n c).regs.errCtx = s.regs.errCtx := rfl
@[simp] theorem setExtracted_errCtxLen (s : State) (a n c : Nat) :
    (s.setExtracted a n c).regs.errCtxLen = s.regs.errCtxLen := rfl
@[simp] theorem setExtracted_hdrNameLo (s : State) (a n c : Nat) :
    (s.setExtracted a n c).regs.hdrNameLo = s.regs.hdrNameLo := rfl
@[simp] theorem setExtracted_hdrNameHi (s : State) (a n c : Nat) :
    (s.setExtracted a n c).regs.hdrNameHi = s.regs.hdrNameHi := rfl
@[simp] theorem setExtracted_hdrId (s : State) (a n c : Nat) : (s.setExtracted a n c).regs.hdrId = s.regs.hdrId := rfl
@[simp] theorem setExtracted_hdrType (s : State) (a n c : Nat) :
    (s.setExtracted a n c).regs.hdrType = s.regs.hdrType := rfl
@[simp] theorem setExtracted_hdrLength (s : State) (a n c : Nat) :
    (s.setExtracted a n c).regs.hdrLength = s.regs.hdrLength := rfl
@[simp] theorem setExtracted_hdrLoad (s : State) (a n c : Nat) :
    (s.setExtracted a n c).regs.hdrLoad = s.regs.hdrLoad := rfl
@[simp] theorem setExtracted_hdrGo (s : State) (a n c : Nat) : (s.setExtracted a n c).regs.hdrGo = s.regs.hdrGo := rfl
@[simp] theorem setExtracted_hdrCksum (s : State) (a n c : Nat) :
    (s.setExtracted a n c).regs.hdrCksum = s.regs.hdrCksum := rfl
@[simp] theorem setExtracted_blockCount (s : State) (a n c : Nat) :
    (s.setExtracted a n c).regs.blockCount = s.regs.blockCount := rfl
@[simp] theorem setExtracted_blockFailCount (s : State) (a n c : Nat) :
    (s.setExtracted a n c).regs.blockFailCount = s.regs.blockFailCount := rfl
@[simp] theorem setExtracted_mem (s : State) (a n c : Nat) : (s.setExtracted a n c).mem = s.mem := rfl
@[simp] theorem setExtracted_pending (s : State) (a n c : Nat) : (s.setExtracted a n c).pending = s.pending := rfl
@[simp] theorem setExtracted_rst (s : State) (a n c : Nat) : (s.setExtracted a n c).rst = s.rst := rfl
@[simp] theorem setExtracted_inputs (s : State) (a n c : Nat) : (s.setExtracted a n c).inputs = s.inputs := rfl
@[simp] theorem setExtracted_replies (s : State) (a n c : Nat) : (s.setExtracted a n c).replies = s.replies := rfl
@[simp] theorem setExtracted_draws (s : State) (a n c : Nat) : (s.setExtracted a n c).draws = s.draws := rfl
@[simp] theorem setExtracted_epoch (s : State) (a n c : Nat) : (s.setExtracted a n c).epoch = s.epoch := rfl

@[simp] theorem clearClassified_params (s : State) : (s.clearClassified).params = s.params := rfl
@[simp] theorem clearClassified_irqEn (s : State) : (s.clearClassified).regs.irqEn = s.regs.irqEn := rfl
@[simp] theorem clearClassified_status (s : State) :
    (s.clearClassified).regs.status = { s.regs.status with histValid := false } := rfl
@[simp] theorem clearClassified_sampleRate (s : State) :
    (s.clearClassified).regs.sampleRate = s.regs.sampleRate := rfl
@[simp] theorem clearClassified_format (s : State) : (s.clearClassified).regs.format = s.regs.format := rfl
@[simp] theorem clearClassified_sampleCount (s : State) :
    (s.clearClassified).regs.sampleCount = s.regs.sampleCount := rfl
@[simp] theorem clearClassified_silenceThr (s : State) :
    (s.clearClassified).regs.silenceThr = s.regs.silenceThr := rfl
@[simp] theorem clearClassified_trimStart (s : State) : (s.clearClassified).regs.trimStart = s.regs.trimStart := rfl
@[simp] theorem clearClassified_trimLen (s : State) : (s.clearClassified).regs.trimLen = s.regs.trimLen := rfl
@[simp] theorem clearClassified_xingCount (s : State) : (s.clearClassified).regs.xingCount = s.regs.xingCount := rfl
@[simp] theorem clearClassified_estTotal (s : State) : (s.clearClassified).regs.estTotal = 0 := rfl
@[simp] theorem clearClassified_histCount (s : State) : (s.clearClassified).regs.histCount = 0 := rfl
@[simp] theorem clearClassified_baud (s : State) : (s.clearClassified).regs.baud = 0 := rfl
@[simp] theorem clearClassified_symCount (s : State) : (s.clearClassified).regs.symCount = 0 := rfl
@[simp] theorem clearClassified_preambleLen (s : State) :
    (s.clearClassified).regs.preambleLen = s.regs.preambleLen := rfl
@[simp] theorem clearClassified_bitCount (s : State) : (s.clearClassified).regs.bitCount = s.regs.bitCount := rfl
@[simp] theorem clearClassified_byteCount (s : State) : (s.clearClassified).regs.byteCount = s.regs.byteCount := rfl
@[simp] theorem clearClassified_errIndex (s : State) : (s.clearClassified).regs.errIndex = s.regs.errIndex := rfl
@[simp] theorem clearClassified_errFreq (s : State) : (s.clearClassified).regs.errFreq = s.regs.errFreq := rfl
@[simp] theorem clearClassified_errCtx (s : State) : (s.clearClassified).regs.errCtx = s.regs.errCtx := rfl
@[simp] theorem clearClassified_errCtxLen (s : State) : (s.clearClassified).regs.errCtxLen = s.regs.errCtxLen := rfl
@[simp] theorem clearClassified_hdrNameLo (s : State) : (s.clearClassified).regs.hdrNameLo = s.regs.hdrNameLo := rfl
@[simp] theorem clearClassified_hdrNameHi (s : State) : (s.clearClassified).regs.hdrNameHi = s.regs.hdrNameHi := rfl
@[simp] theorem clearClassified_hdrId (s : State) : (s.clearClassified).regs.hdrId = s.regs.hdrId := rfl
@[simp] theorem clearClassified_hdrType (s : State) : (s.clearClassified).regs.hdrType = s.regs.hdrType := rfl
@[simp] theorem clearClassified_hdrLength (s : State) : (s.clearClassified).regs.hdrLength = s.regs.hdrLength := rfl
@[simp] theorem clearClassified_hdrLoad (s : State) : (s.clearClassified).regs.hdrLoad = s.regs.hdrLoad := rfl
@[simp] theorem clearClassified_hdrGo (s : State) : (s.clearClassified).regs.hdrGo = s.regs.hdrGo := rfl
@[simp] theorem clearClassified_hdrCksum (s : State) : (s.clearClassified).regs.hdrCksum = s.regs.hdrCksum := rfl
@[simp] theorem clearClassified_blockCount (s : State) :
    (s.clearClassified).regs.blockCount = s.regs.blockCount := rfl
@[simp] theorem clearClassified_blockFailCount (s : State) :
    (s.clearClassified).regs.blockFailCount = s.regs.blockFailCount := rfl
@[simp] theorem clearClassified_mem (s : State) : (s.clearClassified).mem = s.mem := rfl
@[simp] theorem clearClassified_pending (s : State) : (s.clearClassified).pending = s.pending := rfl
@[simp] theorem clearClassified_rst (s : State) : (s.clearClassified).rst = s.rst := rfl
@[simp] theorem clearClassified_inputs (s : State) : (s.clearClassified).inputs = s.inputs := rfl
@[simp] theorem clearClassified_replies (s : State) : (s.clearClassified).replies = s.replies := rfl
@[simp] theorem clearClassified_draws (s : State) : (s.clearClassified).draws = s.draws := rfl
@[simp] theorem clearClassified_epoch (s : State) : (s.clearClassified).epoch = s.epoch := rfl

@[simp] theorem setHistogram_params (s : State) (n : Nat) (h : List HistEntry) :
    (s.setHistogram n h).params = s.params := rfl
@[simp] theorem setHistogram_irqEn (s : State) (n : Nat) (h : List HistEntry) :
    (s.setHistogram n h).regs.irqEn = s.regs.irqEn := rfl
@[simp] theorem setHistogram_status (s : State) (n : Nat) (h : List HistEntry) :
    (s.setHistogram n h).regs.status = { s.regs.status with histValid := true } := rfl
@[simp] theorem setHistogram_sampleRate (s : State) (n : Nat) (h : List HistEntry) :
    (s.setHistogram n h).regs.sampleRate = s.regs.sampleRate := rfl
@[simp] theorem setHistogram_format (s : State) (n : Nat) (h : List HistEntry) :
    (s.setHistogram n h).regs.format = s.regs.format := rfl
@[simp] theorem setHistogram_sampleCount (s : State) (n : Nat) (h : List HistEntry) :
    (s.setHistogram n h).regs.sampleCount = s.regs.sampleCount := rfl
@[simp] theorem setHistogram_silenceThr (s : State) (n : Nat) (h : List HistEntry) :
    (s.setHistogram n h).regs.silenceThr = s.regs.silenceThr := rfl
@[simp] theorem setHistogram_trimStart (s : State) (n : Nat) (h : List HistEntry) :
    (s.setHistogram n h).regs.trimStart = s.regs.trimStart := rfl
@[simp] theorem setHistogram_trimLen (s : State) (n : Nat) (h : List HistEntry) :
    (s.setHistogram n h).regs.trimLen = s.regs.trimLen := rfl
@[simp] theorem setHistogram_xingCount (s : State) (n : Nat) (h : List HistEntry) :
    (s.setHistogram n h).regs.xingCount = s.regs.xingCount := rfl
@[simp] theorem setHistogram_estTotal (s : State) (n : Nat) (h : List HistEntry) :
    (s.setHistogram n h).regs.estTotal = natWord n := rfl
@[simp] theorem setHistogram_histCount (s : State) (n : Nat) (h : List HistEntry) :
    (s.setHistogram n h).regs.histCount = natWord h.length := rfl
@[simp] theorem setHistogram_baud (s : State) (n : Nat) (h : List HistEntry) :
    (s.setHistogram n h).regs.baud = s.regs.baud := rfl
@[simp] theorem setHistogram_symCount (s : State) (n : Nat) (h : List HistEntry) :
    (s.setHistogram n h).regs.symCount = s.regs.symCount := rfl
@[simp] theorem setHistogram_preambleLen (s : State) (n : Nat) (h : List HistEntry) :
    (s.setHistogram n h).regs.preambleLen = s.regs.preambleLen := rfl
@[simp] theorem setHistogram_bitCount (s : State) (n : Nat) (h : List HistEntry) :
    (s.setHistogram n h).regs.bitCount = s.regs.bitCount := rfl
@[simp] theorem setHistogram_byteCount (s : State) (n : Nat) (h : List HistEntry) :
    (s.setHistogram n h).regs.byteCount = s.regs.byteCount := rfl
@[simp] theorem setHistogram_errIndex (s : State) (n : Nat) (h : List HistEntry) :
    (s.setHistogram n h).regs.errIndex = s.regs.errIndex := rfl
@[simp] theorem setHistogram_errFreq (s : State) (n : Nat) (h : List HistEntry) :
    (s.setHistogram n h).regs.errFreq = s.regs.errFreq := rfl
@[simp] theorem setHistogram_errCtx (s : State) (n : Nat) (h : List HistEntry) :
    (s.setHistogram n h).regs.errCtx = s.regs.errCtx := rfl
@[simp] theorem setHistogram_errCtxLen (s : State) (n : Nat) (h : List HistEntry) :
    (s.setHistogram n h).regs.errCtxLen = s.regs.errCtxLen := rfl
@[simp] theorem setHistogram_hdrNameLo (s : State) (n : Nat) (h : List HistEntry) :
    (s.setHistogram n h).regs.hdrNameLo = s.regs.hdrNameLo := rfl
@[simp] theorem setHistogram_hdrNameHi (s : State) (n : Nat) (h : List HistEntry) :
    (s.setHistogram n h).regs.hdrNameHi = s.regs.hdrNameHi := rfl
@[simp] theorem setHistogram_hdrId (s : State) (n : Nat) (h : List HistEntry) :
    (s.setHistogram n h).regs.hdrId = s.regs.hdrId := rfl
@[simp] theorem setHistogram_hdrType (s : State) (n : Nat) (h : List HistEntry) :
    (s.setHistogram n h).regs.hdrType = s.regs.hdrType := rfl
@[simp] theorem setHistogram_hdrLength (s : State) (n : Nat) (h : List HistEntry) :
    (s.setHistogram n h).regs.hdrLength = s.regs.hdrLength := rfl
@[simp] theorem setHistogram_hdrLoad (s : State) (n : Nat) (h : List HistEntry) :
    (s.setHistogram n h).regs.hdrLoad = s.regs.hdrLoad := rfl
@[simp] theorem setHistogram_hdrGo (s : State) (n : Nat) (h : List HistEntry) :
    (s.setHistogram n h).regs.hdrGo = s.regs.hdrGo := rfl
@[simp] theorem setHistogram_hdrCksum (s : State) (n : Nat) (h : List HistEntry) :
    (s.setHistogram n h).regs.hdrCksum = s.regs.hdrCksum := rfl
@[simp] theorem setHistogram_blockCount (s : State) (n : Nat) (h : List HistEntry) :
    (s.setHistogram n h).regs.blockCount = s.regs.blockCount := rfl
@[simp] theorem setHistogram_blockFailCount (s : State) (n : Nat) (h : List HistEntry) :
    (s.setHistogram n h).regs.blockFailCount = s.regs.blockFailCount := rfl
@[simp] theorem setHistogram_samp (s : State) (n : Nat) (h : List HistEntry) :
    (s.setHistogram n h).mem.samp = s.mem.samp := rfl
@[simp] theorem setHistogram_xing (s : State) (n : Nat) (h : List HistEntry) :
    (s.setHistogram n h).mem.xing = s.mem.xing := rfl
@[simp] theorem setHistogram_sym (s : State) (n : Nat) (h : List HistEntry) :
    (s.setHistogram n h).mem.sym = s.mem.sym := rfl
@[simp] theorem setHistogram_bit (s : State) (n : Nat) (h : List HistEntry) :
    (s.setHistogram n h).mem.bit = s.mem.bit := rfl
@[simp] theorem setHistogram_byte (s : State) (n : Nat) (h : List HistEntry) :
    (s.setHistogram n h).mem.byte = s.mem.byte := rfl
@[simp] theorem setHistogram_hist (s : State) (n : Nat) (h : List HistEntry) :
    (s.setHistogram n h).mem.hist = Buf.writePrefix s.mem.hist h := rfl
@[simp] theorem setHistogram_blk (s : State) (n : Nat) (h : List HistEntry) :
    (s.setHistogram n h).mem.blk = s.mem.blk := rfl
@[simp] theorem setHistogram_pending (s : State) (n : Nat) (h : List HistEntry) :
    (s.setHistogram n h).pending = s.pending := rfl
@[simp] theorem setHistogram_rst (s : State) (n : Nat) (h : List HistEntry) : (s.setHistogram n h).rst = s.rst := rfl
@[simp] theorem setHistogram_inputs (s : State) (n : Nat) (h : List HistEntry) :
    (s.setHistogram n h).inputs = s.inputs := rfl
@[simp] theorem setHistogram_replies (s : State) (n : Nat) (h : List HistEntry) :
    (s.setHistogram n h).replies = s.replies := rfl
@[simp] theorem setHistogram_draws (s : State) (n : Nat) (h : List HistEntry) :
    (s.setHistogram n h).draws = s.draws := rfl
@[simp] theorem setHistogram_epoch (s : State) (n : Nat) (h : List HistEntry) :
    (s.setHistogram n h).epoch = s.epoch := rfl

@[simp] theorem setBaud_params (s : State) (c : BitVec 2) : (s.setBaud c).params = s.params := rfl
@[simp] theorem setBaud_irqEn (s : State) (c : BitVec 2) : (s.setBaud c).regs.irqEn = s.regs.irqEn := rfl
@[simp] theorem setBaud_status (s : State) (c : BitVec 2) : (s.setBaud c).regs.status = s.regs.status := rfl
@[simp] theorem setBaud_sampleRate (s : State) (c : BitVec 2) :
    (s.setBaud c).regs.sampleRate = s.regs.sampleRate := rfl
@[simp] theorem setBaud_format (s : State) (c : BitVec 2) : (s.setBaud c).regs.format = s.regs.format := rfl
@[simp] theorem setBaud_sampleCount (s : State) (c : BitVec 2) :
    (s.setBaud c).regs.sampleCount = s.regs.sampleCount := rfl
@[simp] theorem setBaud_silenceThr (s : State) (c : BitVec 2) :
    (s.setBaud c).regs.silenceThr = s.regs.silenceThr := rfl
@[simp] theorem setBaud_trimStart (s : State) (c : BitVec 2) : (s.setBaud c).regs.trimStart = s.regs.trimStart := rfl
@[simp] theorem setBaud_trimLen (s : State) (c : BitVec 2) : (s.setBaud c).regs.trimLen = s.regs.trimLen := rfl
@[simp] theorem setBaud_xingCount (s : State) (c : BitVec 2) : (s.setBaud c).regs.xingCount = s.regs.xingCount := rfl
@[simp] theorem setBaud_estTotal (s : State) (c : BitVec 2) : (s.setBaud c).regs.estTotal = s.regs.estTotal := rfl
@[simp] theorem setBaud_histCount (s : State) (c : BitVec 2) : (s.setBaud c).regs.histCount = s.regs.histCount := rfl
@[simp] theorem setBaud_baud (s : State) (c : BitVec 2) : (s.setBaud c).regs.baud = c := rfl
@[simp] theorem setBaud_symCount (s : State) (c : BitVec 2) : (s.setBaud c).regs.symCount = s.regs.symCount := rfl
@[simp] theorem setBaud_preambleLen (s : State) (c : BitVec 2) :
    (s.setBaud c).regs.preambleLen = s.regs.preambleLen := rfl
@[simp] theorem setBaud_bitCount (s : State) (c : BitVec 2) : (s.setBaud c).regs.bitCount = s.regs.bitCount := rfl
@[simp] theorem setBaud_byteCount (s : State) (c : BitVec 2) : (s.setBaud c).regs.byteCount = s.regs.byteCount := rfl
@[simp] theorem setBaud_errIndex (s : State) (c : BitVec 2) : (s.setBaud c).regs.errIndex = s.regs.errIndex := rfl
@[simp] theorem setBaud_errFreq (s : State) (c : BitVec 2) : (s.setBaud c).regs.errFreq = s.regs.errFreq := rfl
@[simp] theorem setBaud_errCtx (s : State) (c : BitVec 2) : (s.setBaud c).regs.errCtx = s.regs.errCtx := rfl
@[simp] theorem setBaud_errCtxLen (s : State) (c : BitVec 2) : (s.setBaud c).regs.errCtxLen = s.regs.errCtxLen := rfl
@[simp] theorem setBaud_hdrNameLo (s : State) (c : BitVec 2) : (s.setBaud c).regs.hdrNameLo = s.regs.hdrNameLo := rfl
@[simp] theorem setBaud_hdrNameHi (s : State) (c : BitVec 2) : (s.setBaud c).regs.hdrNameHi = s.regs.hdrNameHi := rfl
@[simp] theorem setBaud_hdrId (s : State) (c : BitVec 2) : (s.setBaud c).regs.hdrId = s.regs.hdrId := rfl
@[simp] theorem setBaud_hdrType (s : State) (c : BitVec 2) : (s.setBaud c).regs.hdrType = s.regs.hdrType := rfl
@[simp] theorem setBaud_hdrLength (s : State) (c : BitVec 2) : (s.setBaud c).regs.hdrLength = s.regs.hdrLength := rfl
@[simp] theorem setBaud_hdrLoad (s : State) (c : BitVec 2) : (s.setBaud c).regs.hdrLoad = s.regs.hdrLoad := rfl
@[simp] theorem setBaud_hdrGo (s : State) (c : BitVec 2) : (s.setBaud c).regs.hdrGo = s.regs.hdrGo := rfl
@[simp] theorem setBaud_hdrCksum (s : State) (c : BitVec 2) : (s.setBaud c).regs.hdrCksum = s.regs.hdrCksum := rfl
@[simp] theorem setBaud_blockCount (s : State) (c : BitVec 2) :
    (s.setBaud c).regs.blockCount = s.regs.blockCount := rfl
@[simp] theorem setBaud_blockFailCount (s : State) (c : BitVec 2) :
    (s.setBaud c).regs.blockFailCount = s.regs.blockFailCount := rfl
@[simp] theorem setBaud_mem (s : State) (c : BitVec 2) : (s.setBaud c).mem = s.mem := rfl
@[simp] theorem setBaud_pending (s : State) (c : BitVec 2) : (s.setBaud c).pending = s.pending := rfl
@[simp] theorem setBaud_rst (s : State) (c : BitVec 2) : (s.setBaud c).rst = s.rst := rfl
@[simp] theorem setBaud_inputs (s : State) (c : BitVec 2) : (s.setBaud c).inputs = s.inputs := rfl
@[simp] theorem setBaud_replies (s : State) (c : BitVec 2) : (s.setBaud c).replies = s.replies := rfl
@[simp] theorem setBaud_draws (s : State) (c : BitVec 2) : (s.setBaud c).draws = s.draws := rfl
@[simp] theorem setBaud_epoch (s : State) (c : BitVec 2) : (s.setBaud c).epoch = s.epoch := rfl

@[simp] theorem setSymCount_params (s : State) (n : Nat) : (s.setSymCount n).params = s.params := rfl
@[simp] theorem setSymCount_irqEn (s : State) (n : Nat) : (s.setSymCount n).regs.irqEn = s.regs.irqEn := rfl
@[simp] theorem setSymCount_status (s : State) (n : Nat) : (s.setSymCount n).regs.status = s.regs.status := rfl
@[simp] theorem setSymCount_sampleRate (s : State) (n : Nat) :
    (s.setSymCount n).regs.sampleRate = s.regs.sampleRate := rfl
@[simp] theorem setSymCount_format (s : State) (n : Nat) : (s.setSymCount n).regs.format = s.regs.format := rfl
@[simp] theorem setSymCount_sampleCount (s : State) (n : Nat) :
    (s.setSymCount n).regs.sampleCount = s.regs.sampleCount := rfl
@[simp] theorem setSymCount_silenceThr (s : State) (n : Nat) :
    (s.setSymCount n).regs.silenceThr = s.regs.silenceThr := rfl
@[simp] theorem setSymCount_trimStart (s : State) (n : Nat) :
    (s.setSymCount n).regs.trimStart = s.regs.trimStart := rfl
@[simp] theorem setSymCount_trimLen (s : State) (n : Nat) : (s.setSymCount n).regs.trimLen = s.regs.trimLen := rfl
@[simp] theorem setSymCount_xingCount (s : State) (n : Nat) :
    (s.setSymCount n).regs.xingCount = s.regs.xingCount := rfl
@[simp] theorem setSymCount_estTotal (s : State) (n : Nat) : (s.setSymCount n).regs.estTotal = s.regs.estTotal := rfl
@[simp] theorem setSymCount_histCount (s : State) (n : Nat) :
    (s.setSymCount n).regs.histCount = s.regs.histCount := rfl
@[simp] theorem setSymCount_baud (s : State) (n : Nat) : (s.setSymCount n).regs.baud = s.regs.baud := rfl
@[simp] theorem setSymCount_symCount (s : State) (n : Nat) : (s.setSymCount n).regs.symCount = natWord n := rfl
@[simp] theorem setSymCount_preambleLen (s : State) (n : Nat) :
    (s.setSymCount n).regs.preambleLen = s.regs.preambleLen := rfl
@[simp] theorem setSymCount_bitCount (s : State) (n : Nat) : (s.setSymCount n).regs.bitCount = s.regs.bitCount := rfl
@[simp] theorem setSymCount_byteCount (s : State) (n : Nat) :
    (s.setSymCount n).regs.byteCount = s.regs.byteCount := rfl
@[simp] theorem setSymCount_errIndex (s : State) (n : Nat) : (s.setSymCount n).regs.errIndex = s.regs.errIndex := rfl
@[simp] theorem setSymCount_errFreq (s : State) (n : Nat) : (s.setSymCount n).regs.errFreq = s.regs.errFreq := rfl
@[simp] theorem setSymCount_errCtx (s : State) (n : Nat) : (s.setSymCount n).regs.errCtx = s.regs.errCtx := rfl
@[simp] theorem setSymCount_errCtxLen (s : State) (n : Nat) :
    (s.setSymCount n).regs.errCtxLen = s.regs.errCtxLen := rfl
@[simp] theorem setSymCount_hdrNameLo (s : State) (n : Nat) :
    (s.setSymCount n).regs.hdrNameLo = s.regs.hdrNameLo := rfl
@[simp] theorem setSymCount_hdrNameHi (s : State) (n : Nat) :
    (s.setSymCount n).regs.hdrNameHi = s.regs.hdrNameHi := rfl
@[simp] theorem setSymCount_hdrId (s : State) (n : Nat) : (s.setSymCount n).regs.hdrId = s.regs.hdrId := rfl
@[simp] theorem setSymCount_hdrType (s : State) (n : Nat) : (s.setSymCount n).regs.hdrType = s.regs.hdrType := rfl
@[simp] theorem setSymCount_hdrLength (s : State) (n : Nat) :
    (s.setSymCount n).regs.hdrLength = s.regs.hdrLength := rfl
@[simp] theorem setSymCount_hdrLoad (s : State) (n : Nat) : (s.setSymCount n).regs.hdrLoad = s.regs.hdrLoad := rfl
@[simp] theorem setSymCount_hdrGo (s : State) (n : Nat) : (s.setSymCount n).regs.hdrGo = s.regs.hdrGo := rfl
@[simp] theorem setSymCount_hdrCksum (s : State) (n : Nat) : (s.setSymCount n).regs.hdrCksum = s.regs.hdrCksum := rfl
@[simp] theorem setSymCount_blockCount (s : State) (n : Nat) :
    (s.setSymCount n).regs.blockCount = s.regs.blockCount := rfl
@[simp] theorem setSymCount_blockFailCount (s : State) (n : Nat) :
    (s.setSymCount n).regs.blockFailCount = s.regs.blockFailCount := rfl
@[simp] theorem setSymCount_mem (s : State) (n : Nat) : (s.setSymCount n).mem = s.mem := rfl
@[simp] theorem setSymCount_pending (s : State) (n : Nat) : (s.setSymCount n).pending = s.pending := rfl
@[simp] theorem setSymCount_rst (s : State) (n : Nat) : (s.setSymCount n).rst = s.rst := rfl
@[simp] theorem setSymCount_inputs (s : State) (n : Nat) : (s.setSymCount n).inputs = s.inputs := rfl
@[simp] theorem setSymCount_replies (s : State) (n : Nat) : (s.setSymCount n).replies = s.replies := rfl
@[simp] theorem setSymCount_draws (s : State) (n : Nat) : (s.setSymCount n).draws = s.draws := rfl
@[simp] theorem setSymCount_epoch (s : State) (n : Nat) : (s.setSymCount n).epoch = s.epoch := rfl

@[simp] theorem setDecoded_params (s : State) (a n : Nat) : (s.setDecoded a n).params = s.params := rfl
@[simp] theorem setDecoded_irqEn (s : State) (a n : Nat) : (s.setDecoded a n).regs.irqEn = s.regs.irqEn := rfl
@[simp] theorem setDecoded_status (s : State) (a n : Nat) : (s.setDecoded a n).regs.status = s.regs.status := rfl
@[simp] theorem setDecoded_sampleRate (s : State) (a n : Nat) :
    (s.setDecoded a n).regs.sampleRate = s.regs.sampleRate := rfl
@[simp] theorem setDecoded_format (s : State) (a n : Nat) : (s.setDecoded a n).regs.format = s.regs.format := rfl
@[simp] theorem setDecoded_sampleCount (s : State) (a n : Nat) :
    (s.setDecoded a n).regs.sampleCount = s.regs.sampleCount := rfl
@[simp] theorem setDecoded_silenceThr (s : State) (a n : Nat) :
    (s.setDecoded a n).regs.silenceThr = s.regs.silenceThr := rfl
@[simp] theorem setDecoded_trimStart (s : State) (a n : Nat) :
    (s.setDecoded a n).regs.trimStart = s.regs.trimStart := rfl
@[simp] theorem setDecoded_trimLen (s : State) (a n : Nat) : (s.setDecoded a n).regs.trimLen = s.regs.trimLen := rfl
@[simp] theorem setDecoded_xingCount (s : State) (a n : Nat) :
    (s.setDecoded a n).regs.xingCount = s.regs.xingCount := rfl
@[simp] theorem setDecoded_estTotal (s : State) (a n : Nat) :
    (s.setDecoded a n).regs.estTotal = s.regs.estTotal := rfl
@[simp] theorem setDecoded_histCount (s : State) (a n : Nat) :
    (s.setDecoded a n).regs.histCount = s.regs.histCount := rfl
@[simp] theorem setDecoded_baud (s : State) (a n : Nat) : (s.setDecoded a n).regs.baud = s.regs.baud := rfl
@[simp] theorem setDecoded_symCount (s : State) (a n : Nat) :
    (s.setDecoded a n).regs.symCount = s.regs.symCount := rfl
@[simp] theorem setDecoded_preambleLen (s : State) (a n : Nat) :
    (s.setDecoded a n).regs.preambleLen = natWord a := rfl
@[simp] theorem setDecoded_bitCount (s : State) (a n : Nat) : (s.setDecoded a n).regs.bitCount = natWord n := rfl
@[simp] theorem setDecoded_byteCount (s : State) (a n : Nat) :
    (s.setDecoded a n).regs.byteCount = s.regs.byteCount := rfl
@[simp] theorem setDecoded_errIndex (s : State) (a n : Nat) :
    (s.setDecoded a n).regs.errIndex = s.regs.errIndex := rfl
@[simp] theorem setDecoded_errFreq (s : State) (a n : Nat) : (s.setDecoded a n).regs.errFreq = s.regs.errFreq := rfl
@[simp] theorem setDecoded_errCtx (s : State) (a n : Nat) : (s.setDecoded a n).regs.errCtx = s.regs.errCtx := rfl
@[simp] theorem setDecoded_errCtxLen (s : State) (a n : Nat) :
    (s.setDecoded a n).regs.errCtxLen = s.regs.errCtxLen := rfl
@[simp] theorem setDecoded_hdrNameLo (s : State) (a n : Nat) :
    (s.setDecoded a n).regs.hdrNameLo = s.regs.hdrNameLo := rfl
@[simp] theorem setDecoded_hdrNameHi (s : State) (a n : Nat) :
    (s.setDecoded a n).regs.hdrNameHi = s.regs.hdrNameHi := rfl
@[simp] theorem setDecoded_hdrId (s : State) (a n : Nat) : (s.setDecoded a n).regs.hdrId = s.regs.hdrId := rfl
@[simp] theorem setDecoded_hdrType (s : State) (a n : Nat) : (s.setDecoded a n).regs.hdrType = s.regs.hdrType := rfl
@[simp] theorem setDecoded_hdrLength (s : State) (a n : Nat) :
    (s.setDecoded a n).regs.hdrLength = s.regs.hdrLength := rfl
@[simp] theorem setDecoded_hdrLoad (s : State) (a n : Nat) : (s.setDecoded a n).regs.hdrLoad = s.regs.hdrLoad := rfl
@[simp] theorem setDecoded_hdrGo (s : State) (a n : Nat) : (s.setDecoded a n).regs.hdrGo = s.regs.hdrGo := rfl
@[simp] theorem setDecoded_hdrCksum (s : State) (a n : Nat) :
    (s.setDecoded a n).regs.hdrCksum = s.regs.hdrCksum := rfl
@[simp] theorem setDecoded_blockCount (s : State) (a n : Nat) :
    (s.setDecoded a n).regs.blockCount = s.regs.blockCount := rfl
@[simp] theorem setDecoded_blockFailCount (s : State) (a n : Nat) :
    (s.setDecoded a n).regs.blockFailCount = s.regs.blockFailCount := rfl
@[simp] theorem setDecoded_mem (s : State) (a n : Nat) : (s.setDecoded a n).mem = s.mem := rfl
@[simp] theorem setDecoded_pending (s : State) (a n : Nat) : (s.setDecoded a n).pending = s.pending := rfl
@[simp] theorem setDecoded_rst (s : State) (a n : Nat) : (s.setDecoded a n).rst = s.rst := rfl
@[simp] theorem setDecoded_inputs (s : State) (a n : Nat) : (s.setDecoded a n).inputs = s.inputs := rfl
@[simp] theorem setDecoded_replies (s : State) (a n : Nat) : (s.setDecoded a n).replies = s.replies := rfl
@[simp] theorem setDecoded_draws (s : State) (a n : Nat) : (s.setDecoded a n).draws = s.draws := rfl
@[simp] theorem setDecoded_epoch (s : State) (a n : Nat) : (s.setDecoded a n).epoch = s.epoch := rfl

@[simp] theorem setByteCount_params (s : State) (n : Nat) : (s.setByteCount n).params = s.params := rfl
@[simp] theorem setByteCount_irqEn (s : State) (n : Nat) : (s.setByteCount n).regs.irqEn = s.regs.irqEn := rfl
@[simp] theorem setByteCount_status (s : State) (n : Nat) : (s.setByteCount n).regs.status = s.regs.status := rfl
@[simp] theorem setByteCount_sampleRate (s : State) (n : Nat) :
    (s.setByteCount n).regs.sampleRate = s.regs.sampleRate := rfl
@[simp] theorem setByteCount_format (s : State) (n : Nat) : (s.setByteCount n).regs.format = s.regs.format := rfl
@[simp] theorem setByteCount_sampleCount (s : State) (n : Nat) :
    (s.setByteCount n).regs.sampleCount = s.regs.sampleCount := rfl
@[simp] theorem setByteCount_silenceThr (s : State) (n : Nat) :
    (s.setByteCount n).regs.silenceThr = s.regs.silenceThr := rfl
@[simp] theorem setByteCount_trimStart (s : State) (n : Nat) :
    (s.setByteCount n).regs.trimStart = s.regs.trimStart := rfl
@[simp] theorem setByteCount_trimLen (s : State) (n : Nat) : (s.setByteCount n).regs.trimLen = s.regs.trimLen := rfl
@[simp] theorem setByteCount_xingCount (s : State) (n : Nat) :
    (s.setByteCount n).regs.xingCount = s.regs.xingCount := rfl
@[simp] theorem setByteCount_estTotal (s : State) (n : Nat) :
    (s.setByteCount n).regs.estTotal = s.regs.estTotal := rfl
@[simp] theorem setByteCount_histCount (s : State) (n : Nat) :
    (s.setByteCount n).regs.histCount = s.regs.histCount := rfl
@[simp] theorem setByteCount_baud (s : State) (n : Nat) : (s.setByteCount n).regs.baud = s.regs.baud := rfl
@[simp] theorem setByteCount_symCount (s : State) (n : Nat) :
    (s.setByteCount n).regs.symCount = s.regs.symCount := rfl
@[simp] theorem setByteCount_preambleLen (s : State) (n : Nat) :
    (s.setByteCount n).regs.preambleLen = s.regs.preambleLen := rfl
@[simp] theorem setByteCount_bitCount (s : State) (n : Nat) :
    (s.setByteCount n).regs.bitCount = s.regs.bitCount := rfl
@[simp] theorem setByteCount_byteCount (s : State) (n : Nat) : (s.setByteCount n).regs.byteCount = natWord n := rfl
@[simp] theorem setByteCount_errIndex (s : State) (n : Nat) :
    (s.setByteCount n).regs.errIndex = s.regs.errIndex := rfl
@[simp] theorem setByteCount_errFreq (s : State) (n : Nat) : (s.setByteCount n).regs.errFreq = s.regs.errFreq := rfl
@[simp] theorem setByteCount_errCtx (s : State) (n : Nat) : (s.setByteCount n).regs.errCtx = s.regs.errCtx := rfl
@[simp] theorem setByteCount_errCtxLen (s : State) (n : Nat) :
    (s.setByteCount n).regs.errCtxLen = s.regs.errCtxLen := rfl
@[simp] theorem setByteCount_hdrNameLo (s : State) (n : Nat) :
    (s.setByteCount n).regs.hdrNameLo = s.regs.hdrNameLo := rfl
@[simp] theorem setByteCount_hdrNameHi (s : State) (n : Nat) :
    (s.setByteCount n).regs.hdrNameHi = s.regs.hdrNameHi := rfl
@[simp] theorem setByteCount_hdrId (s : State) (n : Nat) : (s.setByteCount n).regs.hdrId = s.regs.hdrId := rfl
@[simp] theorem setByteCount_hdrType (s : State) (n : Nat) : (s.setByteCount n).regs.hdrType = s.regs.hdrType := rfl
@[simp] theorem setByteCount_hdrLength (s : State) (n : Nat) :
    (s.setByteCount n).regs.hdrLength = s.regs.hdrLength := rfl
@[simp] theorem setByteCount_hdrLoad (s : State) (n : Nat) : (s.setByteCount n).regs.hdrLoad = s.regs.hdrLoad := rfl
@[simp] theorem setByteCount_hdrGo (s : State) (n : Nat) : (s.setByteCount n).regs.hdrGo = s.regs.hdrGo := rfl
@[simp] theorem setByteCount_hdrCksum (s : State) (n : Nat) :
    (s.setByteCount n).regs.hdrCksum = s.regs.hdrCksum := rfl
@[simp] theorem setByteCount_blockCount (s : State) (n : Nat) :
    (s.setByteCount n).regs.blockCount = s.regs.blockCount := rfl
@[simp] theorem setByteCount_blockFailCount (s : State) (n : Nat) :
    (s.setByteCount n).regs.blockFailCount = s.regs.blockFailCount := rfl
@[simp] theorem setByteCount_mem (s : State) (n : Nat) : (s.setByteCount n).mem = s.mem := rfl
@[simp] theorem setByteCount_pending (s : State) (n : Nat) : (s.setByteCount n).pending = s.pending := rfl
@[simp] theorem setByteCount_rst (s : State) (n : Nat) : (s.setByteCount n).rst = s.rst := rfl
@[simp] theorem setByteCount_inputs (s : State) (n : Nat) : (s.setByteCount n).inputs = s.inputs := rfl
@[simp] theorem setByteCount_replies (s : State) (n : Nat) : (s.setByteCount n).replies = s.replies := rfl
@[simp] theorem setByteCount_draws (s : State) (n : Nat) : (s.setByteCount n).draws = s.draws := rfl
@[simp] theorem setByteCount_epoch (s : State) (n : Nat) : (s.setByteCount n).epoch = s.epoch := rfl

@[simp] theorem clearImage_params (s : State) : (s.clearImage).params = s.params := rfl
@[simp] theorem clearImage_irqEn (s : State) : (s.clearImage).regs.irqEn = s.regs.irqEn := rfl
@[simp] theorem clearImage_status (s : State) :
    (s.clearImage).regs.status = { s.regs.status with imageValid := false } := rfl
@[simp] theorem clearImage_sampleRate (s : State) : (s.clearImage).regs.sampleRate = s.regs.sampleRate := rfl
@[simp] theorem clearImage_format (s : State) : (s.clearImage).regs.format = s.regs.format := rfl
@[simp] theorem clearImage_sampleCount (s : State) : (s.clearImage).regs.sampleCount = s.regs.sampleCount := rfl
@[simp] theorem clearImage_silenceThr (s : State) : (s.clearImage).regs.silenceThr = s.regs.silenceThr := rfl
@[simp] theorem clearImage_trimStart (s : State) : (s.clearImage).regs.trimStart = s.regs.trimStart := rfl
@[simp] theorem clearImage_trimLen (s : State) : (s.clearImage).regs.trimLen = s.regs.trimLen := rfl
@[simp] theorem clearImage_xingCount (s : State) : (s.clearImage).regs.xingCount = s.regs.xingCount := rfl
@[simp] theorem clearImage_estTotal (s : State) : (s.clearImage).regs.estTotal = s.regs.estTotal := rfl
@[simp] theorem clearImage_histCount (s : State) : (s.clearImage).regs.histCount = s.regs.histCount := rfl
@[simp] theorem clearImage_baud (s : State) : (s.clearImage).regs.baud = s.regs.baud := rfl
@[simp] theorem clearImage_symCount (s : State) : (s.clearImage).regs.symCount = s.regs.symCount := rfl
@[simp] theorem clearImage_preambleLen (s : State) : (s.clearImage).regs.preambleLen = s.regs.preambleLen := rfl
@[simp] theorem clearImage_bitCount (s : State) : (s.clearImage).regs.bitCount = s.regs.bitCount := rfl
@[simp] theorem clearImage_byteCount (s : State) : (s.clearImage).regs.byteCount = s.regs.byteCount := rfl
@[simp] theorem clearImage_errIndex (s : State) : (s.clearImage).regs.errIndex = s.regs.errIndex := rfl
@[simp] theorem clearImage_errFreq (s : State) : (s.clearImage).regs.errFreq = s.regs.errFreq := rfl
@[simp] theorem clearImage_errCtx (s : State) : (s.clearImage).regs.errCtx = s.regs.errCtx := rfl
@[simp] theorem clearImage_errCtxLen (s : State) : (s.clearImage).regs.errCtxLen = s.regs.errCtxLen := rfl
@[simp] theorem clearImage_hdrNameLo (s : State) : (s.clearImage).regs.hdrNameLo = 0 := rfl
@[simp] theorem clearImage_hdrNameHi (s : State) : (s.clearImage).regs.hdrNameHi = 0 := rfl
@[simp] theorem clearImage_hdrId (s : State) : (s.clearImage).regs.hdrId = 0 := rfl
@[simp] theorem clearImage_hdrType (s : State) : (s.clearImage).regs.hdrType = 0 := rfl
@[simp] theorem clearImage_hdrLength (s : State) : (s.clearImage).regs.hdrLength = 0 := rfl
@[simp] theorem clearImage_hdrLoad (s : State) : (s.clearImage).regs.hdrLoad = 0 := rfl
@[simp] theorem clearImage_hdrGo (s : State) : (s.clearImage).regs.hdrGo = 0 := rfl
@[simp] theorem clearImage_hdrCksum (s : State) :
    (s.clearImage).regs.hdrCksum = { computed := 0, stored := 0, ok := false } := rfl
@[simp] theorem clearImage_blockCount (s : State) : (s.clearImage).regs.blockCount = 0 := rfl
@[simp] theorem clearImage_blockFailCount (s : State) : (s.clearImage).regs.blockFailCount = 0 := rfl
@[simp] theorem clearImage_mem (s : State) : (s.clearImage).mem = s.mem := rfl
@[simp] theorem clearImage_pending (s : State) : (s.clearImage).pending = s.pending := rfl
@[simp] theorem clearImage_rst (s : State) : (s.clearImage).rst = s.rst := rfl
@[simp] theorem clearImage_inputs (s : State) : (s.clearImage).inputs = s.inputs := rfl
@[simp] theorem clearImage_replies (s : State) : (s.clearImage).replies = s.replies := rfl
@[simp] theorem clearImage_draws (s : State) : (s.clearImage).draws = s.draws := rfl
@[simp] theorem clearImage_epoch (s : State) : (s.clearImage).epoch = s.epoch := rfl

@[simp] theorem setImage_params (s : State) (h : Header) (bs : List BlockEntry) :
    (s.setImage h bs).params = s.params := rfl
@[simp] theorem setImage_irqEn (s : State) (h : Header) (bs : List BlockEntry) :
    (s.setImage h bs).regs.irqEn = s.regs.irqEn := rfl
@[simp] theorem setImage_status (s : State) (h : Header) (bs : List BlockEntry) :
    (s.setImage h bs).regs.status = { s.regs.status with imageValid := true } := rfl
@[simp] theorem setImage_sampleRate (s : State) (h : Header) (bs : List BlockEntry) :
    (s.setImage h bs).regs.sampleRate = s.regs.sampleRate := rfl
@[simp] theorem setImage_format (s : State) (h : Header) (bs : List BlockEntry) :
    (s.setImage h bs).regs.format = s.regs.format := rfl
@[simp] theorem setImage_sampleCount (s : State) (h : Header) (bs : List BlockEntry) :
    (s.setImage h bs).regs.sampleCount = s.regs.sampleCount := rfl
@[simp] theorem setImage_silenceThr (s : State) (h : Header) (bs : List BlockEntry) :
    (s.setImage h bs).regs.silenceThr = s.regs.silenceThr := rfl
@[simp] theorem setImage_trimStart (s : State) (h : Header) (bs : List BlockEntry) :
    (s.setImage h bs).regs.trimStart = s.regs.trimStart := rfl
@[simp] theorem setImage_trimLen (s : State) (h : Header) (bs : List BlockEntry) :
    (s.setImage h bs).regs.trimLen = s.regs.trimLen := rfl
@[simp] theorem setImage_xingCount (s : State) (h : Header) (bs : List BlockEntry) :
    (s.setImage h bs).regs.xingCount = s.regs.xingCount := rfl
@[simp] theorem setImage_estTotal (s : State) (h : Header) (bs : List BlockEntry) :
    (s.setImage h bs).regs.estTotal = s.regs.estTotal := rfl
@[simp] theorem setImage_histCount (s : State) (h : Header) (bs : List BlockEntry) :
    (s.setImage h bs).regs.histCount = s.regs.histCount := rfl
@[simp] theorem setImage_baud (s : State) (h : Header) (bs : List BlockEntry) :
    (s.setImage h bs).regs.baud = s.regs.baud := rfl
@[simp] theorem setImage_symCount (s : State) (h : Header) (bs : List BlockEntry) :
    (s.setImage h bs).regs.symCount = s.regs.symCount := rfl
@[simp] theorem setImage_preambleLen (s : State) (h : Header) (bs : List BlockEntry) :
    (s.setImage h bs).regs.preambleLen = s.regs.preambleLen := rfl
@[simp] theorem setImage_bitCount (s : State) (h : Header) (bs : List BlockEntry) :
    (s.setImage h bs).regs.bitCount = s.regs.bitCount := rfl
@[simp] theorem setImage_byteCount (s : State) (h : Header) (bs : List BlockEntry) :
    (s.setImage h bs).regs.byteCount = s.regs.byteCount := rfl
@[simp] theorem setImage_errIndex (s : State) (h : Header) (bs : List BlockEntry) :
    (s.setImage h bs).regs.errIndex = s.regs.errIndex := rfl
@[simp] theorem setImage_errFreq (s : State) (h : Header) (bs : List BlockEntry) :
    (s.setImage h bs).regs.errFreq = s.regs.errFreq := rfl
@[simp] theorem setImage_errCtx (s : State) (h : Header) (bs : List BlockEntry) :
    (s.setImage h bs).regs.errCtx = s.regs.errCtx := rfl
@[simp] theorem setImage_errCtxLen (s : State) (h : Header) (bs : List BlockEntry) :
    (s.setImage h bs).regs.errCtxLen = s.regs.errCtxLen := rfl
@[simp] theorem setImage_hdrNameLo (s : State) (h : Header) (bs : List BlockEntry) :
    (s.setImage h bs).regs.hdrNameLo = byteAt h.name 3 ++ byteAt h.name 2 ++ byteAt h.name 1 ++ byteAt h.name 0 := rfl
@[simp] theorem setImage_hdrNameHi (s : State) (h : Header) (bs : List BlockEntry) :
    (s.setImage h bs).regs.hdrNameHi = byteAt h.name 4 := rfl
@[simp] theorem setImage_hdrId (s : State) (h : Header) (bs : List BlockEntry) :
    (s.setImage h bs).regs.hdrId = h.id := rfl
@[simp] theorem setImage_hdrType (s : State) (h : Header) (bs : List BlockEntry) :
    (s.setImage h bs).regs.hdrType = h.fileType := rfl
@[simp] theorem setImage_hdrLength (s : State) (h : Header) (bs : List BlockEntry) :
    (s.setImage h bs).regs.hdrLength = h.length := rfl
@[simp] theorem setImage_hdrLoad (s : State) (h : Header) (bs : List BlockEntry) :
    (s.setImage h bs).regs.hdrLoad = h.load := rfl
@[simp] theorem setImage_hdrGo (s : State) (h : Header) (bs : List BlockEntry) :
    (s.setImage h bs).regs.hdrGo = h.go := rfl
@[simp] theorem setImage_hdrCksum (s : State) (h : Header) (bs : List BlockEntry) :
    (s.setImage h bs).regs.hdrCksum = h.cksum := rfl
@[simp] theorem setImage_blockCount (s : State) (h : Header) (bs : List BlockEntry) :
    (s.setImage h bs).regs.blockCount = BitVec.ofNat 9 bs.length := rfl
@[simp] theorem setImage_blockFailCount (s : State) (h : Header) (bs : List BlockEntry) :
    (s.setImage h bs).regs.blockFailCount = BitVec.ofNat 9 (failCount bs) := rfl
@[simp] theorem setImage_mem (s : State) (h : Header) (bs : List BlockEntry) : (s.setImage h bs).mem = s.mem := rfl
@[simp] theorem setImage_pending (s : State) (h : Header) (bs : List BlockEntry) :
    (s.setImage h bs).pending = s.pending := rfl
@[simp] theorem setImage_rst (s : State) (h : Header) (bs : List BlockEntry) : (s.setImage h bs).rst = s.rst := rfl
@[simp] theorem setImage_inputs (s : State) (h : Header) (bs : List BlockEntry) :
    (s.setImage h bs).inputs = s.inputs := rfl
@[simp] theorem setImage_replies (s : State) (h : Header) (bs : List BlockEntry) :
    (s.setImage h bs).replies = s.replies := rfl
@[simp] theorem setImage_draws (s : State) (h : Header) (bs : List BlockEntry) :
    (s.setImage h bs).draws = s.draws := rfl
@[simp] theorem setImage_epoch (s : State) (h : Header) (bs : List BlockEntry) :
    (s.setImage h bs).epoch = s.epoch := rfl

@[simp] theorem writeBlocks_params (s : State) (bs : List BlockEntry) : (s.writeBlocks bs).params = s.params := rfl
@[simp] theorem writeBlocks_regs (s : State) (bs : List BlockEntry) : (s.writeBlocks bs).regs = s.regs := rfl
@[simp] theorem writeBlocks_samp (s : State) (bs : List BlockEntry) : (s.writeBlocks bs).mem.samp = s.mem.samp := rfl
@[simp] theorem writeBlocks_xing (s : State) (bs : List BlockEntry) : (s.writeBlocks bs).mem.xing = s.mem.xing := rfl
@[simp] theorem writeBlocks_sym (s : State) (bs : List BlockEntry) : (s.writeBlocks bs).mem.sym = s.mem.sym := rfl
@[simp] theorem writeBlocks_bit (s : State) (bs : List BlockEntry) : (s.writeBlocks bs).mem.bit = s.mem.bit := rfl
@[simp] theorem writeBlocks_byte (s : State) (bs : List BlockEntry) : (s.writeBlocks bs).mem.byte = s.mem.byte := rfl
@[simp] theorem writeBlocks_hist (s : State) (bs : List BlockEntry) : (s.writeBlocks bs).mem.hist = s.mem.hist := rfl
@[simp] theorem writeBlocks_blk (s : State) (bs : List BlockEntry) :
    (s.writeBlocks bs).mem.blk = Buf.writePrefix s.mem.blk bs := rfl
@[simp] theorem writeBlocks_pending (s : State) (bs : List BlockEntry) : (s.writeBlocks bs).pending = s.pending := rfl
@[simp] theorem writeBlocks_rst (s : State) (bs : List BlockEntry) : (s.writeBlocks bs).rst = s.rst := rfl
@[simp] theorem writeBlocks_inputs (s : State) (bs : List BlockEntry) : (s.writeBlocks bs).inputs = s.inputs := rfl
@[simp] theorem writeBlocks_replies (s : State) (bs : List BlockEntry) : (s.writeBlocks bs).replies = s.replies := rfl
@[simp] theorem writeBlocks_draws (s : State) (bs : List BlockEntry) : (s.writeBlocks bs).draws = s.draws := rfl
@[simp] theorem writeBlocks_epoch (s : State) (bs : List BlockEntry) : (s.writeBlocks bs).epoch = s.epoch := rfl

@[simp] theorem clearOutputs_params (s : State) : (s.clearOutputs).params = s.params := rfl
@[simp] theorem clearOutputs_irqEn (s : State) : (s.clearOutputs).regs.irqEn = s.regs.irqEn := rfl
@[simp] theorem clearOutputs_status (s : State) :
    (s.clearOutputs).regs.status = { s.regs.status with imageValid := false } := rfl
@[simp] theorem clearOutputs_sampleRate (s : State) : (s.clearOutputs).regs.sampleRate = s.regs.sampleRate := rfl
@[simp] theorem clearOutputs_format (s : State) : (s.clearOutputs).regs.format = s.regs.format := rfl
@[simp] theorem clearOutputs_sampleCount (s : State) : (s.clearOutputs).regs.sampleCount = s.regs.sampleCount := rfl
@[simp] theorem clearOutputs_silenceThr (s : State) : (s.clearOutputs).regs.silenceThr = s.regs.silenceThr := rfl
@[simp] theorem clearOutputs_trimStart (s : State) : (s.clearOutputs).regs.trimStart = 0 := rfl
@[simp] theorem clearOutputs_trimLen (s : State) : (s.clearOutputs).regs.trimLen = 0 := rfl
@[simp] theorem clearOutputs_xingCount (s : State) : (s.clearOutputs).regs.xingCount = 0 := rfl
@[simp] theorem clearOutputs_estTotal (s : State) : (s.clearOutputs).regs.estTotal = 0 := rfl
@[simp] theorem clearOutputs_histCount (s : State) : (s.clearOutputs).regs.histCount = 0 := rfl
@[simp] theorem clearOutputs_baud (s : State) : (s.clearOutputs).regs.baud = 0 := rfl
@[simp] theorem clearOutputs_symCount (s : State) : (s.clearOutputs).regs.symCount = 0 := rfl
@[simp] theorem clearOutputs_preambleLen (s : State) : (s.clearOutputs).regs.preambleLen = 0 := rfl
@[simp] theorem clearOutputs_bitCount (s : State) : (s.clearOutputs).regs.bitCount = 0 := rfl
@[simp] theorem clearOutputs_byteCount (s : State) : (s.clearOutputs).regs.byteCount = 0 := rfl
@[simp] theorem clearOutputs_errIndex (s : State) : (s.clearOutputs).regs.errIndex = s.regs.errIndex := rfl
@[simp] theorem clearOutputs_errFreq (s : State) : (s.clearOutputs).regs.errFreq = s.regs.errFreq := rfl
@[simp] theorem clearOutputs_errCtx (s : State) : (s.clearOutputs).regs.errCtx = s.regs.errCtx := rfl
@[simp] theorem clearOutputs_errCtxLen (s : State) : (s.clearOutputs).regs.errCtxLen = s.regs.errCtxLen := rfl
@[simp] theorem clearOutputs_hdrNameLo (s : State) : (s.clearOutputs).regs.hdrNameLo = 0 := rfl
@[simp] theorem clearOutputs_hdrNameHi (s : State) : (s.clearOutputs).regs.hdrNameHi = 0 := rfl
@[simp] theorem clearOutputs_hdrId (s : State) : (s.clearOutputs).regs.hdrId = 0 := rfl
@[simp] theorem clearOutputs_hdrType (s : State) : (s.clearOutputs).regs.hdrType = 0 := rfl
@[simp] theorem clearOutputs_hdrLength (s : State) : (s.clearOutputs).regs.hdrLength = 0 := rfl
@[simp] theorem clearOutputs_hdrLoad (s : State) : (s.clearOutputs).regs.hdrLoad = 0 := rfl
@[simp] theorem clearOutputs_hdrGo (s : State) : (s.clearOutputs).regs.hdrGo = 0 := rfl
@[simp] theorem clearOutputs_hdrCksum (s : State) :
    (s.clearOutputs).regs.hdrCksum = { computed := 0, stored := 0, ok := false } := rfl
@[simp] theorem clearOutputs_blockCount (s : State) : (s.clearOutputs).regs.blockCount = 0 := rfl
@[simp] theorem clearOutputs_blockFailCount (s : State) : (s.clearOutputs).regs.blockFailCount = 0 := rfl
@[simp] theorem clearOutputs_mem (s : State) : (s.clearOutputs).mem = s.mem := rfl
@[simp] theorem clearOutputs_pending (s : State) : (s.clearOutputs).pending = s.pending := rfl
@[simp] theorem clearOutputs_rst (s : State) : (s.clearOutputs).rst = s.rst := rfl
@[simp] theorem clearOutputs_inputs (s : State) : (s.clearOutputs).inputs = s.inputs := rfl
@[simp] theorem clearOutputs_replies (s : State) : (s.clearOutputs).replies = s.replies := rfl
@[simp] theorem clearOutputs_draws (s : State) : (s.clearOutputs).draws = s.draws := rfl
@[simp] theorem clearOutputs_epoch (s : State) : (s.clearOutputs).epoch = s.epoch := rfl

end Sys2Proof.Machine
end

