-- ==== Sys2Proof/Laws/Commands.lean ====
section
/-! SUPPORT. What each command's body does, case by case, what completion leaves, and what a step can be: the lemmas to
cite in place of unfolding `exec`, a body or `step`. -/

namespace Sys2Proof.Machine

/-! ## Completion (R141, R152) -/

@[simp] theorem finish_eq (x : Stage) : x.finish = .next x.complete := rfl

/-- Completion without an error: DONE rises, BUSY falls, nothing is pending, all else stays. -/
theorem complete_done (s : State) :
    (Stage.done s).complete =
      { s with
        pending := none, regs := { s.regs with status := { s.regs.status with busy := false, done := true } } } := rfl

/-- Completion with an error: as without one, and the report is entered. -/
theorem complete_raised (s : State) (e : FatalError) :
    (Stage.raised s e).complete =
      { s with
        pending := none
        regs := { s.regs with
          status := { s.regs.status with busy := false, done := true, err := true, errCode := e.code }
          errIndex := e.report.index, errFreq := e.report.freq, errCtx := e.report.ctx, errCtxLen := e.report.ctxLen } } := rfl

/-- Every command's step is the completion of some stage. -/
theorem exec_eq_complete (i : Instr) (s : State) : ∃ x : Stage, exec i s = .next x.complete := by
  cases i <;> exact ⟨_, rfl⟩

@[simp] theorem complete_pending (x : Stage) : x.complete.pending = none := by cases x <;> rfl
@[simp] theorem complete_busy (x : Stage) : x.complete.regs.status.busy = false := by cases x <;> rfl
@[simp] theorem complete_done_flag (x : Stage) : x.complete.regs.status.done = true := by cases x <;> rfl

@[simp] theorem andThen_done (s : State) (f : State → Stage) : (Stage.done s).andThen f = f s := rfl
@[simp] theorem andThen_raised (s : State) (e : FatalError) (f : State → Stage) :
    (Stage.raised s e).andThen f = .raised s e := rfl

/-- A sequence of two stages: the first raises, or it is done and the second follows. -/
theorem andThen_cases (x : Stage) (f : State → Stage) :
    (∃ s r, x = .raised s r ∧ x.andThen f = .raised s r) ∨ (∃ s, x = .done s ∧ x.andThen f = f s) := by
  cases x with
  | done s => exact .inr ⟨s, rfl, rfl⟩
  | raised s r => exact .inl ⟨s, r, rfl, rfl⟩

/-- What a stage establishes: `P` of the state it is done with, `Q` of the state and the report it raises. -/
def Ends (x : Stage) (P : State → Prop) (Q : State → FatalError → Prop) : Prop :=
  match x with
  | .done s => P s
  | .raised s r => Q s r

@[simp] theorem ends_done (s : State) (P : State → Prop) (Q : State → FatalError → Prop) :
    Ends (.done s) P Q ↔ P s := Iff.rfl

@[simp] theorem ends_raised (s : State) (r : FatalError) (P : State → Prop) (Q : State → FatalError → Prop) :
    Ends (.raised s r) P Q ↔ Q s r := Iff.rfl

theorem Ends.of_done {x : Stage} {P : State → Prop} {Q : State → FatalError → Prop} (h : Ends x P Q) {s : State}
    (hx : x = .done s) : P s := by subst hx; exact h

theorem Ends.of_raised {x : Stage} {P : State → Prop} {Q : State → FatalError → Prop} (h : Ends x P Q) {s : State}
    {r : FatalError} (hx : x = .raised s r) : Q s r := by subst hx; exact h

theorem Ends.mono {x : Stage} {P P' : State → Prop} {Q Q' : State → FatalError → Prop} (h : Ends x P Q)
    (hP : ∀ s, P s → P' s) (hQ : ∀ s r, Q s r → Q' s r) : Ends x P' Q' := by
  cases x with
  | done s => exact hP s h
  | raised s r => exact hQ s r h

/-- The rule for a sequence of two stages. -/
theorem ends_andThen {x : Stage} {f : State → Stage} {P P' : State → Prop} {Q : State → FatalError → Prop}
    (hx : Ends x P Q) (hf : ∀ s, P s → Ends (f s) P' Q) : Ends (x.andThen f) P' Q := by
  cases x with
  | done s => exact hf s hx
  | raised s r => exact hx

/-! ## The bodies -/

theorem acceptable_iff (f : Format) : f.acceptable = true ↔ f.channels = 1 ∧ f.compressed = false := by
  simp [Format.acceptable]

/-- The body of EXTRACT (R96): the format check, the capacity check, or the crossings of the trimmed input. -/
theorem extractBody_cases (s : State) :
    (s.regs.format.acceptable = false ∧
      extractBody s = .raised (s.setExtracted 0 0 0) .unsupportedFormat) ∨
    (s.regs.format.acceptable = true ∧ s.params.maxSamples < s.regs.sampleCount.toNat ∧
      extractBody s = .raised (s.setExtracted 0 0 0) (.badConfig 1)) ∨
    (s.regs.format.acceptable = true ∧ s.regs.sampleCount.toNat ≤ s.params.maxSamples ∧
      ∃ kept, kept = trim (s.samples s.regs.sampleCount.toNat) s.regs.silenceThr.toNat ∧
        extractBody s = .done
          ((s.setMem { s.mem with xing := Buf.writePrefix s.mem.xing (crossings kept.2) }).setExtracted
            kept.1 kept.2.length (crossings kept.2).length)) := by
  unfold extractBody
  cases h : s.regs.format.acceptable
  · simp
  · by_cases h2 : s.regs.sampleCount.toNat > s.params.maxSamples
    · simp [h2]
    · simp [h2, Nat.le_of_not_lt h2]

/-- The mapping part of CLASSIFY (R106, R107): every estimate has a symbol, or the first that has none is reported. -/
theorem mapStage_cases (b : Baud) (es : List Freq) (s : State) :
    (∃ syms, mapSymbols b 0 es = (syms, none) ∧
      mapStage b es s =
        .done ((s.setMem { s.mem with sym := Buf.writePrefix s.mem.sym syms }).setSymCount es.length)) ∨
    (∃ syms j f, mapSymbols b 0 es = (syms, some (j, f)) ∧
      mapStage b es s =
        .raised ((s.setMem { s.mem with sym := Buf.writePrefix s.mem.sym syms }).setSymCount 0)
          (.unidentifiedTone j f)) := by
  unfold mapStage
  rcases mapSymbols b 0 es with ⟨syms, _ | ⟨j, f⟩⟩
  · exact .inl ⟨syms, rfl, rfl⟩
  · exact .inr ⟨syms, j, f, rfl, rfl⟩

/-- CLASSIFY from the estimates on (R104, R107): the histogram is built, and then the recording is faulty or the symbols are
mapped at the baud rate inferred. -/
theorem classifyEstimates_cases (es : List Freq) (s : State) :
    (∃ e, (inferBaud (histogram es) = .only1200 ∧ e = .faulty1200Only ∨
          inferBaud (histogram es) = .no1200 ∧ e = .faultyNo1200) ∧
      classifyEstimates es s =
        .raised (((s.setHistogram es.length (histogram es)).setBaud 0).setSymCount 0) e) ∨
    (∃ b, inferBaud (histogram es) = .baud b ∧
      classifyEstimates es s = mapStage b es ((s.setHistogram es.length (histogram es)).setBaud b.code)) := by
  unfold classifyEstimates
  cases h : inferBaud (histogram es) with
  | baud b => exact .inr ⟨b, rfl, by simp [h]⟩
  | only1200 => exact .inl ⟨_, .inl ⟨rfl, rfl⟩, by simp [h]⟩
  | no1200 => exact .inl ⟨_, .inr ⟨rfl, rfl⟩, by simp [h]⟩

/-- The body of CLASSIFY (R107) up to the estimates. -/
theorem classifyBody_cases (s : State) :
    (s.regs.sampleRate = 0 ∧ classifyBody s = .raised s.clearClassified (.badConfig 2)) ∨
    (s.regs.sampleRate ≠ 0 ∧
      ((∃ j, estimates s.regs.sampleRate.toNat (s.xings s.regs.xingCount.toNat) = .zeroInterval j ∧
        classifyBody s = .raised s.clearClassified (.zeroInterval j)) ∨
      (∃ es, estimates s.regs.sampleRate.toNat (s.xings s.regs.xingCount.toNat) = .ok es ∧
        classifyBody s = classifyEstimates es s))) := by
  unfold classifyBody
  by_cases h : s.regs.sampleRate = 0
  · exact .inl ⟨h, if_pos h⟩
  · rw [if_neg h]
    cases estimates s.regs.sampleRate.toNat (s.xings s.regs.xingCount.toNat) with
    | zeroInterval j => exact .inr ⟨h, .inl ⟨j, rfl, rfl⟩⟩
    | ok es => exact .inr ⟨h, .inr ⟨es, rfl, rfl⟩⟩

/-- The decoding part of BITDEC (R118): a well-formed sequence, or the first bad token; the bits emitted go to BIT. -/
theorem decodeStage_cases (b : Baud) (syms : List Tone) (s : State) :
    (∃ bits, bitDecode b syms = (bits, none) ∧
      decodeStage b syms s =
        .done ((s.setMem { s.mem with bit := Buf.writePrefix s.mem.bit bits }).setDecoded
          (preambleLength syms) bits.length)) ∨
    (∃ bits p ctx, bitDecode b syms = (bits, some (p, ctx)) ∧
      decodeStage b syms s =
        .raised ((s.setMem { s.mem with bit := Buf.writePrefix s.mem.bit bits }).setDecoded (preambleLength syms) 0)
          (.invalidSequence p ctx)) := by
  unfold decodeStage
  rcases bitDecode b syms with ⟨bits, _ | ⟨p, ctx⟩⟩
  · exact .inl ⟨bits, rfl, rfl⟩
  · exact .inr ⟨bits, p, ctx, rfl, rfl⟩

/-- The body of BITDEC (R118): its two checks, in their order, or the decoding. -/
theorem bitdecBody_cases (s : State) :
    (Baud.ofCode s.regs.baud = none ∧ bitdecBody s = .raised (s.setDecoded 0 0) (.badConfig 3)) ∨
    (∃ b, Baud.ofCode s.regs.baud = some b ∧
      ((s.params.maxSamples < s.regs.symCount.toNat ∧ bitdecBody s = .raised (s.setDecoded 0 0) (.badConfig 4)) ∨
      (s.regs.symCount.toNat ≤ s.params.maxSamples ∧
        bitdecBody s = decodeStage b (s.syms s.regs.symCount.toNat) s))) := by
  unfold bitdecBody
  cases h : Baud.ofCode s.regs.baud with
  | none => exact .inl ⟨rfl, rfl⟩
  | some b =>
    by_cases h2 : s.regs.symCount.toNat > s.params.maxSamples
    · exact .inr ⟨b, rfl, .inl ⟨h2, if_pos h2⟩⟩
    · exact .inr ⟨b, rfl, .inr ⟨Nat.le_of_not_lt h2, if_neg h2⟩⟩

/-- The body of FRAME (R125): its check, or the bytes. -/
theorem frameBody_cases (s : State) :
    (s.params.maxSamples < s.regs.bitCount.toNat ∧ frameBody s = .raised (s.setByteCount 0) (.badConfig 5)) ∨
    (s.regs.bitCount.toNat ≤ s.params.maxSamples ∧
      ∃ y, y = frame (s.bits s.regs.bitCount.toNat) ∧
        frameBody s =
          .done ((s.setMem { s.mem with byte := Buf.writePrefix s.mem.byte y }).setByteCount y.length)) := by
  unfold frameBody
  by_cases h : s.regs.bitCount.toNat > s.params.maxSamples
  · exact .inl ⟨h, if_pos h⟩
  · exact .inr ⟨Nat.le_of_not_lt h, _, rfl, if_neg h⟩

/-- The body of ASSEMBLE (R138): its check, a truncation, or an image. -/
theorem assembleBody_cases (s : State) :
    (s.params.maxSamples < s.regs.byteCount.toNat ∧ assembleBody s = .raised s.clearImage (.badConfig 6)) ∨
    (s.regs.byteCount.toNat ≤ s.params.maxSamples ∧
      ((∃ e blocks, assemble (s.bytes s.regs.byteCount.toNat) = .truncated e blocks ∧
        assembleBody s =
          .raised (s.writeBlocks blocks).clearImage (.truncated e)) ∨
      (∃ hdr blocks, assemble (s.bytes s.regs.byteCount.toNat) = .image hdr blocks ∧
        assembleBody s = .done ((s.writeBlocks blocks).setImage hdr blocks)))) := by
  unfold assembleBody
  by_cases h : s.regs.byteCount.toNat > s.params.maxSamples
  · exact .inl ⟨h, if_pos h⟩
  · refine .inr ⟨Nat.le_of_not_lt h, ?_⟩
    rw [if_neg h]
    cases assemble (s.bytes s.regs.byteCount.toNat) with
    | truncated e blocks => exact .inl ⟨e, blocks, rfl, rfl⟩
    | image hdr blocks => exact .inr ⟨hdr, blocks, rfl, rfl⟩

/-- The body of DECODE (R146): its three checks, in their order, or the five stages. -/
theorem decodeBody_cases (s : State) :
    (s.regs.format.acceptable = false ∧ decodeBody s = .raised s.clearOutputs .unsupportedFormat) ∨
    (s.regs.format.acceptable = true ∧ s.params.maxSamples < s.regs.sampleCount.toNat ∧
      decodeBody s = .raised s.clearOutputs (.badConfig 1)) ∨
    (s.regs.format.acceptable = true ∧ s.regs.sampleCount.toNat ≤ s.params.maxSamples ∧ s.regs.sampleRate = 0 ∧
      decodeBody s = .raised s.clearOutputs (.badConfig 2)) ∨
    (s.regs.format.acceptable = true ∧ s.regs.sampleCount.toNat ≤ s.params.maxSamples ∧ s.regs.sampleRate ≠ 0 ∧
      decodeBody s = pipeline s.clearOutputs) := by
  unfold decodeBody
  cases h : s.regs.format.acceptable
  · simp
  · by_cases h2 : s.regs.sampleCount.toNat > s.params.maxSamples
    · simp [h2]
    · rw [if_neg (by simp), if_neg h2]
      by_cases h3 : s.regs.sampleRate = 0
      · exact .inr (.inr (.inl ⟨rfl, Nat.le_of_not_lt h2, h3, if_pos h3⟩))
      · exact .inr (.inr (.inr ⟨rfl, Nat.le_of_not_lt h2, h3, if_neg h3⟩))

/-- What an illegal word's body is (R151). -/
theorem illegalBody_eq (s : State) : illegalBody s = .raised s .illegalCommand := rfl

/-! ## Steps -/

/-- The engine's turn: a pending command with `rst` low is performed; without one, or under reset, nothing happens. -/
theorem engineTurn_cases (s : State) :
    (∃ w, s.rst = false ∧ s.pending = some w ∧ engineTurn s = exec (decodeCmd w) s) ∨
    ((s.rst = true ∨ s.pending = none) ∧ engineTurn s = .next s) := by
  unfold engineTurn State.ready
  cases hr : s.rst
  · cases hp : s.pending with
    | none => exact .inr ⟨.inr rfl, by simp⟩
    | some w => exact .inl ⟨w, rfl, rfl, by simp⟩
  · exact .inr ⟨.inl rfl, by simp⟩

/-- Everything a step that answers a next state can be: the engine's turn, an aligned host access, or a move of the reset
input; only the first can come with no input listed. -/
theorem step_cases {s t : State} (h : step s = .next t) :
    (s.inputs = [] ∧ engineTurn s = .next t) ∨
    ∃ i rest, s.inputs = i :: rest ∧
      ((i = .engine ∧ engineTurn { s with inputs := rest } = .next t) ∨
      (∃ a, i = .read a ∧ aligned a = true ∧ t = hostRead a { s with inputs := rest }) ∨
      (∃ a v, i = .write a v ∧ aligned a = true ∧ t = hostWrite a v { s with inputs := rest }) ∨
      (∃ level, i = .rst level ∧ t = resetInput level { s with inputs := rest })) := by
  unfold step at h
  split at h
  · exact .inl ⟨‹_›, h⟩
  · exact .inr ⟨_, _, ‹_›, .inl ⟨rfl, h⟩⟩
  · split at h
    · injection h with h
      exact .inr ⟨_, _, ‹_›, .inr (.inl ⟨_, rfl, ‹_›, h.symm⟩)⟩
    · cases h
  · split at h
    · injection h with h
      exact .inr ⟨_, _, ‹_›, .inr (.inr (.inl ⟨_, _, rfl, ‹_›, h.symm⟩))⟩
    · cases h
  · injection h with h
    exact .inr ⟨_, _, ‹_›, .inr (.inr (.inr ⟨_, rfl, h.symm⟩))⟩

/-- What a host read can change: the replies, and the count of free values used. -/
theorem hostRead_cases (a : Word) (s : State) :
    ∃ v, hostRead a s = s.reply v ∨ hostRead a s = { s.reply v with draws := s.draws + 1 } := by
  unfold hostRead
  split
  · exact ⟨_, .inl rfl⟩
  · split
    · exact ⟨_, .inr rfl⟩
    · exact ⟨_, .inl rfl⟩

/-- What a host write is: nothing under reset; while BUSY = 1 a write to CTRL, the W1C action on STATUS, or WERR; else a
write to a register, to an element below its buffer's capacity, or nothing. -/
theorem hostWrite_cases (a v : Word) (s : State) :
    (s.rst = true ∧ hostWrite a v s = s) ∨
    (s.rst = false ∧ s.regs.status.busy = true ∧
      (hostWrite a v s = writeReg .ctrl v s ∨ hostWrite a v s = writeReg .status v s ∨
        hostWrite a v s = s.setStatus { s.regs.status with werr := true })) ∨
    (s.rst = false ∧ s.regs.status.busy = false ∧
      ((∃ r, hostWrite a v s = writeReg r v s) ∨
        (∃ w k, k < windowCapacity s.params w ∧ hostWrite a v s = writeElement w k v s) ∨ hostWrite a v s = s)) := by
  unfold hostWrite
  cases hr : s.rst
  · cases hb : s.regs.status.busy
    · refine .inr (.inr ⟨rfl, rfl, ?_⟩)
      simp only [Bool.false_eq_true, if_false]
      cases ht : targetOf s.params a with
      | reg r => exact .inl ⟨r, rfl⟩
      | unmapped => exact .inr (.inr rfl)
      | element w k f =>
        refine .inr (.inl ⟨w, k, ?_, rfl⟩)
        unfold targetOf at ht
        split at ht
        · split at ht <;> cases ht
        · split at ht
          · cases ht
          · simp only at ht
            split at ht
            · injection ht with h1 h2 h3; subst h1 h2; assumption
            · cases ht
    · refine .inr (.inl ⟨rfl, rfl, ?_⟩)
      simp only [Bool.false_eq_true, if_false, if_true]
      unfold writeBusy
      split
      · exact .inl rfl
      · exact .inr (.inl rfl)
      all_goals exact .inr (.inr rfl)
  · exact .inl ⟨rfl, by simp⟩

end Sys2Proof.Machine
end

