-- ==== Sys2Proof/Laws/PerInstr.lean ====
section
/-! SUPPORT. One fact about every constructor of `Instr`: its word carries its opcode, and zeros above it unless it is an
illegal word of R79. -/

namespace Sys2Proof.Laws.WordFields

/-- The opcode column of R78 and R80; an illegal word has the opcode field it has. -/
def opcodeOf (i : Instr) : BitVec 4 :=
  match i with
  | .nop => 0x0
  | .decode => 0x1
  | .extract => 0x2
  | .classify => 0x3
  | .bitdec => 0x4
  | .frame => 0x5
  | .assemble => 0x6
  | .reserved7 => 0x7
  | .reserved8 => 0x8
  | .reserved9 => 0x9
  | .reservedA => 0xA
  | .reservedB => 0xB
  | .reservedC => 0xC
  | .reservedD => 0xD
  | .reservedE => 0xE
  | .reset => 0xF
  | .illegal w => w.extractLsb' 0 4

/-- OPCODE of the command's word is its opcode, and ZERO is 0 exactly when the command is no illegal word (R76, R79). -/
def Statement (i : Instr) : Prop :=
  WellFormed i →
    opcodeField (encodeCmd i) = opcodeOf i ∧ (zeroField (encodeCmd i) = 0#28 ↔ ∀ w, i ≠ .illegal w)

theorem nop : Statement .nop := fun _ => ⟨by decide, by simp; decide⟩
theorem decode : Statement .decode := fun _ => ⟨by decide, by simp; decide⟩
theorem extract : Statement .extract := fun _ => ⟨by decide, by simp; decide⟩
theorem classify : Statement .classify := fun _ => ⟨by decide, by simp; decide⟩
theorem bitdec : Statement .bitdec := fun _ => ⟨by decide, by simp; decide⟩
theorem frame : Statement .frame := fun _ => ⟨by decide, by simp; decide⟩
theorem assemble : Statement .assemble := fun _ => ⟨by decide, by simp; decide⟩
theorem reserved7 : Statement .reserved7 := fun _ => ⟨by decide, by simp; decide⟩
theorem reserved8 : Statement .reserved8 := fun _ => ⟨by decide, by simp; decide⟩
theorem reserved9 : Statement .reserved9 := fun _ => ⟨by decide, by simp; decide⟩
theorem reservedA : Statement .reservedA := fun _ => ⟨by decide, by simp; decide⟩
theorem reservedB : Statement .reservedB := fun _ => ⟨by decide, by simp; decide⟩
theorem reservedC : Statement .reservedC := fun _ => ⟨by decide, by simp; decide⟩
theorem reservedD : Statement .reservedD := fun _ => ⟨by decide, by simp; decide⟩
theorem reservedE : Statement .reservedE := fun _ => ⟨by decide, by simp; decide⟩
theorem reset : Statement .reset := fun _ => ⟨by decide, by simp; decide⟩

theorem illegal (w : Word) : Statement (.illegal w) := fun h => by
  have hw : wellFormed (.illegal w) = true := h
  have h' : w.extractLsb' 4 28 ≠ 0#28 := by simpa [wellFormed] using hw
  exact ⟨rfl, fun e => absurd e h', fun e => absurd rfl (e w)⟩

end Sys2Proof.Laws.WordFields
end

