-- ==== Sys2Proof/Laws/Stages.lean ====
section
/-! SUPPORT. Lengths, bounds and unfoldings of the stages' pure functions. -/

namespace Sys2Proof.Machine

/-! ## Stage 1 -/

theorem trim_length_le (s : List Int) (threshold : Nat) : (trim s threshold).2.length ≤ s.length := by
  unfold trim
  cases h : s.dropWhile (nearSilent threshold) with
  | nil => simp
  | cons v rest =>
    have h1 := (List.dropWhile_sublist (l := s) (nearSilent threshold)).length_le
    have h2 := (List.dropWhile_sublist (l := (v :: rest).reverse) (nearSilent threshold)).length_le
    rw [h] at h1
    simp only [List.length_reverse] at h2 ⊢
    omega

/-- Every retained sample is an input sample. -/
theorem mem_of_mem_trim {s : List Int} {threshold : Nat} {v : Int} (h : v ∈ (trim s threshold).2) : v ∈ s := by
  unfold trim at h
  cases hs : s.dropWhile (nearSilent threshold) with
  | nil => simp [hs] at h
  | cons u rest =>
    rw [hs] at h
    simp only [List.mem_reverse] at h
    have h1 := (List.dropWhile_sublist (l := (u :: rest).reverse) (nearSilent threshold)).subset h
    have h2 := (List.dropWhile_sublist (l := s) (nearSilent threshold)).subset
    rw [hs] at h2
    exact h2 (List.mem_reverse.1 h1)

theorem crossingsFrom_length_le (i : Nat) (t : List Int) : (crossingsFrom i t).length ≤ t.length - 1 := by
  induction t generalizing i with
  | nil => simp [crossingsFrom]
  | cons a t ih =>
    cases t with
    | nil => simp [crossingsFrom]
    | cons b rest =>
      have := ih (i + 1)
      simp only [List.length_cons, Nat.add_sub_cancel] at this
      rw [crossingsFrom]
      split <;> simp only [List.length_cons] <;> omega

/-- A sequence of n samples has at most n - 1 crossings (R91). -/
theorem crossings_length_le (t : List Int) : (crossings t).length ≤ t.length - 1 := crossingsFrom_length_le 0 t

/-- Where a crossing comes from (R88, R90). -/
theorem mem_crossingsFrom {i : Nat} {t : List Int} {c : Crossing} (h : c ∈ crossingsFrom i t) :
    ∃ k a b, t[k]? = some a ∧ t[k + 1]? = some b ∧ signChange a b = true ∧ c = crossingRecord (i + k) a b := by
  induction t generalizing i with
  | nil => simp [crossingsFrom] at h
  | cons a t ih =>
    cases t with
    | nil => simp [crossingsFrom] at h
    | cons b rest =>
      have shift : c ∈ crossingsFrom (i + 1) (b :: rest) → ∃ k a' b', (a :: b :: rest)[k]? = some a' ∧
          (a :: b :: rest)[k + 1]? = some b' ∧ signChange a' b' = true ∧ c = crossingRecord (i + k) a' b' := fun hm => by
        obtain ⟨k, a', b', h1, h2, h3, h4⟩ := ih hm
        exact ⟨k + 1, a', b', by simpa using h1, by simpa using h2, h3, by rw [h4]; congr 1; omega⟩
      rw [crossingsFrom] at h
      split at h
      · rcases List.mem_cons.1 h with rfl | hm
        · exact ⟨0, a, b, rfl, rfl, ‹_›, rfl⟩
        · exact shift hm
      · exact shift h

/-! ## Stage 2 -/

/-- m crossings give m - 1 estimates (R98). -/
theorem estimateList_length (r : Nat) (cs : List Crossing) : (estimateList r cs).length = cs.length - 1 := by
  induction cs with
  | nil => rfl
  | cons c cs ih =>
    cases cs with
    | nil => rfl
    | cons d rest => simp only [estimateList, List.length_cons, Nat.add_sub_cancel] at ih ⊢; omega

/-- The estimates there are, when no interval has length 0. -/
theorem estimates_ok {r : Nat} {cs : List Crossing} {es : List Freq} (h : estimates r cs = .ok es) :
    firstZeroInterval 0 cs = none ∧ es = estimateList r cs := by
  unfold estimates at h
  split at h
  · cases h
  · injection h with h; exact ⟨‹_›, h.symm⟩

theorem countBucket_length_le (b : Nat) (h : List HistEntry) : (countBucket b h).length ≤ h.length + 1 := by
  induction h with
  | nil => simp [countBucket]
  | cons e h ih => rw [countBucket]; split <;> simp only [List.length_cons] <;> omega

/-- Counting one more estimate adds one to the sum of the counts. -/
theorem countBucket_sum (b : Nat) (h : List HistEntry) :
    ((countBucket b h).map (fun e => e.count)).sum = (h.map (fun e => e.count)).sum + 1 := by
  induction h with
  | nil => simp [countBucket]
  | cons e h ih => rw [countBucket]; split <;> simp only [List.map_cons, List.sum_cons] <;> omega

/-- The buckets after one more estimate: the same, in the same order, or one new bucket at the end. -/
theorem countBucket_buckets (b : Nat) (h : List HistEntry) :
    (countBucket b h).map (fun e => e.bucket) =
      if b ∈ h.map (fun e => e.bucket) then h.map (fun e => e.bucket) else h.map (fun e => e.bucket) ++ [b] := by
  induction h with
  | nil => simp [countBucket]
  | cons e h ih =>
    rw [countBucket]
    by_cases hb : e.bucket = b
    · simp [hb]
    · simp only [hb, if_false, List.map_cons, ih, List.mem_cons, Ne.symm hb, false_or]
      split <;> simp

/-- What holds of every entry after one more estimate. -/
theorem mem_countBucket {b : Nat} {h : List HistEntry} {e : HistEntry} (he : e ∈ countBucket b h) :
    e ∈ h ∨ e = { bucket := b, count := 1 } ∨ ∃ e' ∈ h, e'.bucket = b ∧ e = { e' with count := e'.count + 1 } := by
  induction h with
  | nil => simp [countBucket] at he; exact .inr (.inl he)
  | cons x h ih =>
    rw [countBucket] at he
    split at he
    · rcases List.mem_cons.1 he with rfl | hm
      · exact .inr (.inr ⟨x, by simp, ‹_›, rfl⟩)
      · exact .inl (List.mem_cons_of_mem _ hm)
    · rcases List.mem_cons.1 he with rfl | hm
      · exact .inl (by simp)
      · rcases ih hm with h1 | h1 | ⟨e', h1, h2, h3⟩
        · exact .inl (List.mem_cons_of_mem _ h1)
        · exact .inr (.inl h1)
        · exact .inr (.inr ⟨e', List.mem_cons_of_mem _ h1, h2, h3⟩)

/-- Building the histogram one estimate at a time, from the last one on. -/
theorem histogram_append (es : List Freq) (f : Freq) :
    histogram (es ++ [f]) = countBucket (bucket f) (histogram es) := by simp [histogram]

/-- There are at most as many buckets as estimates. -/
theorem histogram_length_le (es : List Freq) : (histogram es).length ≤ es.length := by
  induction es using List.reverseRecOn with
  | nil => simp [histogram]
  | append_singleton es f ih =>
    rw [histogram_append]
    have := countBucket_length_le (bucket f) (histogram es)
    simp only [List.length_append, List.length_singleton]
    omega

theorem hundred_dvd_bucket (f : Freq) : 100 ∣ bucket f := ⟨_, rfl⟩

/-- Every entry of a histogram counts at least one estimate, in a bucket that is a multiple of 100 (R50). -/
theorem mem_histogram {es : List Freq} {e : HistEntry} (h : e ∈ histogram es) : 1 ≤ e.count ∧ 100 ∣ e.bucket := by
  induction es using List.reverseRecOn generalizing e with
  | nil => simp [histogram] at h
  | append_singleton es f ih =>
    rw [histogram_append] at h
    rcases mem_countBucket h with h1 | rfl | ⟨e', h1, _, rfl⟩
    · exact ih h1
    · exact ⟨Nat.le_refl 1, hundred_dvd_bucket f⟩
    · exact ⟨by simp, (ih h1).2⟩

/-- How far the mapping goes (R106): to the end, or to the first estimate that has no symbol. -/
theorem mapSymbols_cases (b : Baud) (j : Nat) (es : List Freq) :
    (∃ syms, mapSymbols b j es = (syms, none) ∧ es.map (mapSymbol b) = syms.map some) ∨
    (∃ syms k f, mapSymbols b j es = (syms, some (j + k, f)) ∧ es[k]? = some f ∧ mapSymbol b f = none ∧
      (es.take k).map (mapSymbol b) = syms.map some) := by
  induction es generalizing j with
  | nil => exact .inl ⟨[], rfl, rfl⟩
  | cons f es ih =>
    rw [mapSymbols]
    cases hf : mapSymbol b f with
    | none => exact .inr ⟨[], 0, f, rfl, rfl, hf, rfl⟩
    | some t =>
      rcases ih (j + 1) with ⟨syms, h1, h2⟩ | ⟨syms, k, g, h1, h2, h3, h4⟩
      · exact .inl ⟨t :: syms, by simp [h1], by simp [hf, h2]⟩
      · exact .inr ⟨t :: syms, k + 1, g, by simp [h1]; omega, by simpa using h2, h3, by simp [hf, h4]⟩

/-! ## Stage 3 -/

theorem zeroLen_pos (b : Baud) : 0 < zeroLen b := by cases b <;> decide
theorem oneLen_pos (b : Baud) : 0 < oneLen b := by cases b <;> decide

/-- The decoder emits at most one bit for each symbol (R112). -/
theorem decodeTokens_length_le {z o : Nat} (hz : 0 < z) (ho : 0 < o) (fuel pos : Nat) (rest : List Tone) :
    (decodeTokens z o fuel pos rest).1.length ≤ rest.length := by
  induction fuel generalizing pos rest with
  | zero => simp [decodeTokens]
  | succ fuel ih =>
    have take_len : ∀ n (x : Tone), rest.take n = List.replicate n x → n ≤ rest.length := fun n x h => by
      have := congrArg List.length h; simp at this; omega
    rw [decodeTokens]
    split
    · have := ih (pos + z) (rest.drop z)
      have := take_len z _ ‹_›
      simp only [List.length_cons, List.length_drop] at *
      omega
    · split
      · have := ih (pos + o) (rest.drop o)
        have := take_len o _ ‹_›
        simp only [List.length_cons, List.length_drop] at *
        omega
      · split <;> simp

theorem bitDecode_length_le (b : Baud) (s : List Tone) : (bitDecode b s).1.length ≤ s.length := by
  have := decodeTokens_length_le (zeroLen_pos b) (oneLen_pos b) (s.length + 1) (preambleLength s)
    (s.drop (preambleLength s))
  simp only [List.length_drop] at this
  exact Nat.le_trans this (by omega)

/-! ## Stage 4 -/

@[simp] theorem frame_length (b : List Bool) : (frame b).length = b.length / 11 := by simp [frame, frameBits]

/-! ## Stage 5 -/

/-- Every record the block loop makes is the record of the payload it names, of 1 to 256 bytes (R133, R136). -/
theorem mem_assembleBlocks {y : List Byte} {fuel remaining off k : Nat} {b : BlockEntry}
    (h : b ∈ (assembleBlocks y fuel remaining off k).1) :
    b = blockRecord y b.offset b.length ∧ 1 ≤ b.length ∧ b.length ≤ 256 ∧ b.offset + b.length < y.length := by
  induction fuel generalizing remaining off k with
  | zero => simp [assembleBlocks] at h
  | succ fuel ih =>
    rw [assembleBlocks] at h
    split at h
    · simp at h
    · simp only at h
      split at h
      · simp at h
      · rcases List.mem_cons.1 h with rfl | hm
        · refine ⟨rfl, ?_, ?_, ?_⟩ <;> simp only [blockRecord, blockMax] at * <;> omega
        · exact ih hm

/-- At most one record for each 256 bytes asked for, rounded up. -/
theorem assembleBlocks_length_le (y : List Byte) (fuel remaining off k : Nat) :
    (assembleBlocks y fuel remaining off k).1.length ≤ (remaining + 255) / 256 := by
  induction fuel generalizing remaining off k with
  | zero => simp [assembleBlocks]
  | succ fuel ih =>
    rw [assembleBlocks]
    split
    · simp
    · simp only
      split
      · simp
      · have := ih (remaining - min blockMax remaining) (off + blockStride) (k + 1)
        simp only [List.length_cons, blockMax] at *
        omega

end Sys2Proof.Machine
end

