-- ==== Sys2Proof/Tests/Slice0.lean ====
section
/-! SUPPORT. The model's own tests: expected values are the spec's, written out from the rule or the table of
spec/95_test_vectors.md that each docstring names; and, for the statements of Certificates/Slice0, states and operands that
meet their hypotheses. -/

namespace Sys2Proof.Tests

open Sys2Proof Sys2Proof.Machine

/-! ## Helpers -/

/-- W = 16, MAX_SAMPLES = 64, SILENCE_THRESHOLD_RESET = 0: one instantiation of the parameters of R7. -/
def small : Params := { sampleBits := 16, maxSamples := 64, silenceThrReset := 0 }

/-- The core after hardware reset, with those parameters. -/
def idle : State := { State.reset with params := small, regs := Regs.reset small }

/-- That core with a register block and buffers of a test's choice. -/
def given (r : Regs) (m : Memory) : State := { idle with regs := r, mem := m }

/-- The registers after reset. -/
def regs0 : Regs := Regs.reset small

/-- A sequence as the contents of a buffer. -/
def filled {α : Type} (vs : List α) : Buf α := Buf.entriesFrom 0 vs

/-- The state with one input to come. -/
def upNext (s : State) (i : Input) : State := { s with inputs := [i] }

/-- Whether an outcome is a next state of which `q` holds. -/
def ends (o : Host.Outcome State Fault Refusal) (q : State → Bool) : Bool :=
  match o with
  | .next t => q t
  | .fault _ => false
  | .refused _ => false

/-- What a command does from a state: it is accepted as R139 says, and then performed. -/
def perform (word : Word) (s : State) : Host.Outcome State Fault Refusal := step (s.issued word)

/-- STATUS after a command. -/
def statusAfter (word : Word) (s : State) (expected : Word) : Bool :=
  ends (perform word s) (fun t => t.regs.status.toWord == expected)

/-! ## Well-formedness: each check refuses an ill-formed term -/

/-- The word 3 is CLASSIFY's, so no `illegal` carries it (R79). -/
theorem test_illegal_with_zero_upper_bits_refused : wellFormed (.illegal 0x00000003#32) = false := by decide

/-- Nor the reserved word 0x7, which is a row of its own. -/
theorem test_illegal_with_reserved_opcode_refused : wellFormed (.illegal 0x00000007#32) = false := by decide

theorem test_illegal_words_accepted :
    wellFormed (.illegal 0x00000010#32) = true ∧ wellFormed (.illegal 0xFFFFFFFF#32) = true := by decide

/-! ## Decoding: words written out bit by bit from R76 and R78 -/

theorem test_decode_commands :
    decodeCmd 0b0000_0000_0000_0000_0000_0000_0000_0000#32 = .nop ∧
    decodeCmd 0b0000_0000_0000_0000_0000_0000_0000_0001#32 = .decode ∧
    decodeCmd 0b0000_0000_0000_0000_0000_0000_0000_0010#32 = .extract ∧
    decodeCmd 0b0000_0000_0000_0000_0000_0000_0000_0011#32 = .classify ∧
    decodeCmd 0b0000_0000_0000_0000_0000_0000_0000_0100#32 = .bitdec ∧
    decodeCmd 0b0000_0000_0000_0000_0000_0000_0000_0101#32 = .frame ∧
    decodeCmd 0b0000_0000_0000_0000_0000_0000_0000_0110#32 = .assemble ∧
    decodeCmd 0b0000_0000_0000_0000_0000_0000_0000_1111#32 = .reset := by decide

/-- R80. -/
theorem test_decode_reserved :
    decodeCmd 0b0000_0000_0000_0000_0000_0000_0000_0111#32 = .reserved7 ∧
    decodeCmd 0b0000_0000_0000_0000_0000_0000_0000_1000#32 = .reserved8 ∧
    decodeCmd 0b0000_0000_0000_0000_0000_0000_0000_1001#32 = .reserved9 ∧
    decodeCmd 0b0000_0000_0000_0000_0000_0000_0000_1010#32 = .reservedA ∧
    decodeCmd 0b0000_0000_0000_0000_0000_0000_0000_1011#32 = .reservedB ∧
    decodeCmd 0b0000_0000_0000_0000_0000_0000_0000_1100#32 = .reservedC ∧
    decodeCmd 0b0000_0000_0000_0000_0000_0000_0000_1101#32 = .reservedD ∧
    decodeCmd 0b0000_0000_0000_0000_0000_0000_0000_1110#32 = .reservedE := by decide

/-- R79: bits [31:4] not all zero, the lowest and the highest of them. -/
theorem test_decode_illegal :
    decodeCmd 0b0000_0000_0000_0000_0000_0000_0001_0001#32 = .illegal 0x11#32 ∧
    decodeCmd 0b1000_0000_0000_0000_0000_0000_0000_1111#32 = .illegal 0x8000000F#32 := by decide

/-- The rows of the opcode table as the host numbers them; a request of more than 32 bits is rejected by name. -/
theorem test_decodeTableWord :
    decodeTableWord 32 0x00000004 = some .bitdec ∧ decodeTableWord 32 0x0000000F = some .reset ∧
    decodeTableWord 32 0x00000010 = some (.illegal 0x10#32) ∧ decodeTableWord 64 0 = none ∧
    decodeBits 64 0 = .error .notOneWord := by decide

/-- Every row's word runs as the first command after reset. -/
theorem test_every_row_runs_from_reset :
    [0x0, 0x1, 0x2, 0x3, 0x4, 0x5, 0x6, 0x7, 0x8, 0x9, 0xA, 0xB, 0xC, 0xD, 0xE, 0xF, 0x10].all (fun w =>
      ends (step (State.reset.withFetchWord 32 w)) (fun t => t.regs.status.done && t.pending == none)) = true := by
  decide

/-! ## Commands: the vectors of spec/95_test_vectors.md -/

/-- Mono, uncompressed input of `n` samples at 4800 Hz. -/
def mono (n : Nat) (threshold : Word) : Regs :=
  { regs0 with
    format := { channels := 1, compressed := false }, sampleRate := 4800, sampleCount := natWord n
    silenceThr := threshold }

/-- The core with samples to decode. -/
def recording (samples : List Int) (threshold : Word) : State :=
  given (mono samples.length threshold) { Memory.empty with samp := filled samples }

/-- Table 2.6: after STATUS 0x3326, NOP leaves 0x22. -/
theorem test_nop_clears_the_error :
    statusAfter 0x0 (given { regs0 with
      status := { Status.reset with done := true, err := true, histValid := true, errCode := 3, lastCmd := 3 } }
      Memory.empty) 0x00000022#32 = true := by decide

/-- Table 2.6: STATUS 0x3032, RESET, STATUS 0xF002; the buffers stay. -/
theorem test_reset_keeps_the_buffers :
    ends (perform 0xF (given { regs0 with
        irqEn := true, sampleRate := 48000
        status := { Status.reset with done := true, imageValid := true, histValid := true, lastCmd := 3 } }
        { Memory.empty with byte := [(3, 7)] }))
      (fun t => t.regs.status.toWord == 0x0000F002#32 && t.regs.sampleRate == 0 && t.mem.byte == [(3, 7)] && !t.irq) =
    true := by decide

/-- P4: 0x17 gives STATUS 0x7906, 0x8 gives 0x8906. -/
theorem test_illegal_words :
    statusAfter 0x17 idle 0x00007906#32 = true ∧ statusAfter 0x8 idle 0x00008906#32 = true := by decide

/-- Table 2.6: reserved opcodes 0x7 to 0xE give ERRCODE 9 and their own LASTCMD. -/
theorem test_reserved_opcodes :
    [0x7, 0x8, 0x9, 0xA, 0xB, 0xC, 0xD, 0xE].all (fun (c : Nat) =>
      statusAfter (natWord c) idle (natWord (0x906 + 0x1000 * c))) = true := by decide

/-- Table 2.1, the extreme samples: no overflow. -/
theorem test_extract_extreme_samples :
    ends (perform 0x2 (recording [-32768, 32767] 0)) (fun t =>
      t.regs.status.toWord == 0x00002002#32 &&
        t.xings t.regs.xingCount.toNat == [{ index := 0, p := 32768, q := 65535, rising := true }]) = true := by decide

/-- Table 2.1, trimming at threshold 10: the inner 3 is kept and INDEX is relative to the trimmed sequence. -/
theorem test_extract_trims_the_ends :
    ends (perform 0x2 (recording [1, -2, 50, -50, 3, 60, 2, -1] 10)) (fun t =>
      t.regs.trimStart == 2 && t.regs.trimLen == 4 && t.xings t.regs.xingCount.toNat ==
        [{ index := 0, p := 50, q := 100, rising := false }, { index := 1, p := 50, q := 53, rising := true }]) =
    true := by decide

/-- The crossings of P1, at 1/2, 5/2, 9/2 and 17/2. -/
def p1Crossings : List Crossing :=
  [{ index := 0, p := 100, q := 200, rising := false }, { index := 2, p := 100, q := 200, rising := true },
    { index := 4, p := 100, q := 200, rising := false }, { index := 8, p := 100, q := 200, rising := true }]

/-- P1 after CLASSIFY: 1200 twice and 600 once, 1200 baud, H H L. -/
theorem test_classify_1200_baud :
    ends (perform 0x3 (given { regs0 with sampleRate := 4800, xingCount := 4 }
        { Memory.empty with xing := filled p1Crossings })) (fun t =>
      t.regs.status.toWord == 0x00003022#32 && t.regs.baud == 2 && t.regs.estTotal == 3 &&
        t.histEntries == [{ bucket := 1200, count := 2 }, { bucket := 600, count := 1 }] &&
        t.syms t.regs.symCount.toNat == [.high, .high, .low]) = true := by decide

/-- Crossings of which the second and the third are at the same position. -/
def zeroIntervalCrossings : List Crossing :=
  [{ index := 0, p := 1, q := 6, rising := false }, { index := 1, p := 5, q := 5, rising := true },
    { index := 2, p := 0, q := 3, rising := false }, { index := 3, p := 3, q := 4, rising := true }]

/-- The ZERO_INTERVAL vector of 2.2.2: crossings at 1/6, 2, 2 and 15/4. -/
theorem test_classify_zero_interval :
    ends (perform 0x3 (given { regs0 with sampleRate := 4800, xingCount := 4 }
        { Memory.empty with xing := filled zeroIntervalCrossings }))
      (fun t => t.regs.status.toWord == 0x00003606#32 && t.regs.errIndex == 1) = true := by decide

/-- The core with symbols to decode; `true` is H. -/
def tones (code : BitVec 2) (syms : List Bool) : State :=
  given { regs0 with baud := code, symCount := natWord syms.length }
    { Memory.empty with sym := filled (syms.map Tone.ofBit) }

/-- Table 2.3: LHL at 1200 baud fails at 1 with context HL. -/
theorem test_bitdec_invalid_sequence :
    ends (perform 0x4 (tones 2 [false, true, false])) (fun t =>
      t.regs.status.toWord == 0x00004506#32 && t.regs.errIndex == 1 && t.regs.errCtx == 1 && t.regs.errCtxLen == 2 &&
        t.regs.bitCount == 0 && t.bit 0 == false) = true := by decide

/-- Table 2.3: four H, then L*8, H*16, L*8 at 300 baud is 010. -/
theorem test_bitdec_300_baud :
    ends (perform 0x4 (tones 1 (List.replicate 4 true ++ List.replicate 8 false ++ List.replicate 16 true ++
        List.replicate 8 false))) (fun t =>
      t.regs.status.toWord == 0x00004002#32 && t.regs.preambleLen == 4 &&
        t.bits t.regs.bitCount.toNat == [false, true, false]) = true := by decide

/-- The core with bits to frame. -/
def bitstream (bits : List Bool) : State :=
  given { regs0 with bitCount := natWord bits.length } { Memory.empty with bit := filled bits }

/-- Table 2.4: the frame of 0xA5. -/
theorem test_frame_reverses_the_bits :
    ends (perform 0x5 (bitstream [false, true, false, true, false, false, true, false, true, true, true])) (fun t =>
      t.regs.status.toWord == 0x00005002#32 && t.bytes t.regs.byteCount.toNat == [0xA5]) = true := by decide

/-- R125: bad start and stop bits are no error, and the 10 bits after a frame are dropped. -/
theorem test_frame_is_positional :
    ends (perform 0x5 (bitstream ([true, true, true, true, true, true, true, true, true, false, false] ++
      List.replicate 10 false))) (fun t =>
      t.regs.status.toWord == 0x00005002#32 && t.bytes t.regs.byteCount.toNat == [0xFF]) = true := by decide

/-- The core with bytes to assemble and room for 256. -/
def byteStream (ys : List Byte) : State :=
  { given { regs0 with byteCount := natWord ys.length } { Memory.empty with byte := filled ys } with
    params := { small with maxSamples := 256 } }

/-- P3's byte stream. -/
def p3Bytes : List Byte :=
  List.replicate 101 0 ++ [72, 69, 76, 76, 79, 1, 2, 3, 0, 0, 4, 0, 4, 0, 0, 0, 0x6E] ++ List.replicate 101 0 ++
    [1, 2, 3, 0xF7]

/-- P3: the header registers and BLK[0]. -/
theorem test_assemble_one_block :
    ends (perform 0x6 (byteStream p3Bytes)) (fun t =>
      t.regs.status.toWord == 0x00006012#32 && t.regs.hdrNameLo == 0x4C4C4548#32 && t.regs.hdrNameHi == 0x4F &&
        t.regs.hdrLength == 3 && t.regs.hdrLoad == 0x0400 && t.regs.hdrCksum.toWord == 0x00016E6E#32 &&
        t.regs.blockCount == 1 && (t.blk 0).offset == 219 && (t.blk 0).length == 3 &&
        (t.blk 0).checkWord == 0x0001F7F7#32) = true := by decide +kernel

/-- Table 2.5.2: 117 bytes hold no header. -/
theorem test_assemble_truncated_header :
    ends (perform 0x6 (byteStream (List.replicate 117 0))) (fun t =>
      t.regs.status.toWord == 0x00006706#32 && t.regs.errIndex == 0) = true := by decide +kernel

/-- Table 2.7, runs [2, 2, 4]: DECODE ends in TRUNCATED with the counts of the stages it reached. -/
theorem test_decode_truncated :
    ends (perform 0x1 (recording [100, -100, -100, 100, 100, -100, -100, -100, -100, 100] 0)) (fun t =>
      t.regs.status.toWord == 0x00001726#32 && t.regs.symCount == 3 && t.regs.preambleLen == 2 &&
        t.regs.bitCount == 1 && t.regs.byteCount == 0) = true := by decide

/-- Table 2.7: SAMP = [-5, 0, -3] is ZERO_INTERVAL 0. -/
theorem test_decode_zero_interval :
    ends (perform 0x1 (recording [-5, 0, -3] 0)) (fun t =>
      t.regs.status.toWord == 0x00001606#32 && t.regs.xingCount == 2) = true := by decide

/-! ## Witnesses: states and operands that meet the hypotheses of each statement, at the boundaries of its clauses -/

/-- The core with command word `w` accepted. -/
def busy (w : Word) : State := idle.accept w

theorem witness_DecodeAndEncodeAgree : WellFormed (.illegal 0x10#32) ∧ 16 ≤ (0x10#32 : Word).toNat := by decide

theorem witness_StepRunsThePendingCommand :
    (busy 5#32).rst = false ∧ (busy 5#32).pending = some 5#32 ∧ (busy 5#32).inputs = [] ∧
    (upNext (busy 5#32) .engine).pending = some 5#32 ∧ (upNext (busy 5#32) .engine).inputs = [.engine] ∧
    idle.pending = none ∧ idle.inputs = [] ∧ (upNext idle .engine).inputs = [.engine] ∧
    (upNext { busy 5#32 with rst := true } .engine).rst = true := by decide

theorem witness_CmdWriteIsAccepted :
    (upNext idle (.write 0x008#32 3#32)).Idle ∧
    (upNext idle (.write 0x008#32 3#32)).inputs = [.write 0x008#32 3#32] ∧
    (upNext (busy 2#32) (.write 0x008#32 3#32)).Busy := by decide

/-- The two addresses that take the write, a register that does not, and the last word of the address space. -/
theorem witness_WritesWhileBusy :
    ∀ n ∈ [0x004, 0x00C, 0x008, 0xFFFFFFFC],
      (upNext (busy 2#32) (.write (natWord n) 0xA#32)).Busy ∧ (natWord n).toNat % 4 = 0 := by decide

theorem witness_OnlyMisalignedRequestsAreRefused :
    (upNext idle (.read 0x001#32)).inputs = [.read 0x001#32] ∧ (0x001#32 : Word).toNat % 4 ≠ 0 ∧
    (upNext idle (.write 0xFFFFFFFC#32 1#32)).inputs = [.write 0xFFFFFFFC#32 1#32] ∧
    (0xFFFFFFFC#32 : Word).toNat % 4 = 0 := by decide

theorem witness_ReadsHaveNoSideEffects :
    ∃ t, (upNext (busy 1#32) (.read 0x010#32)).inputs = [.read 0x010#32] ∧
      step (upNext (busy 1#32) (.read 0x010#32)) = .next t := ⟨_, rfl, rfl⟩

/-- The three readable registers, the register after them, and an element. -/
theorem witness_ReadsWhileBusy :
    ∀ n ∈ [0x000, 0x004, 0x00C, 0x010, 0x10000000],
      (upNext (busy 1#32) (.read (natWord n))).Busy ∧ (natWord n).toNat % 4 = 0 := by decide

/-- Both ends of every range the statement names. -/
theorem witness_UnmappedAddressesReadZeroAndIgnoreWrites :
    (∀ n ∈ [0x058, 0x05C, 0x088, 0x0FFFFFFC, 0x80000000, 0xFFFFFFFC],
      (upNext idle (.read (natWord n))).Idle ∧ (natWord n).toNat % 4 = 0 ∧
      (natWord n = 0x058#32 ∨ natWord n = 0x05C#32 ∨
        (0x088 ≤ (natWord n).toNat ∧ (natWord n).toNat < 0x10000000) ∨ 0x80000000 ≤ (natWord n).toNat)) ∧
    (∀ p ∈ [(Window.samp, 0x10000100), (.samp, 0x1FFFFFFC), (.xing, 0x20000400), (.blk, 0x70001000),
        (.blk, 0x7FFFFFFC)],
      windowBase p.1 + windowStride p.1 * windowCapacity idle.params p.1 ≤ (natWord p.2).toNat ∧
        (natWord p.2).toNat < windowBase p.1 + 0x10000000) := by decide

theorem witness_RegisterReads :
    ∀ r ∈ [Reg.id, .cmd, .status, .hdrCksum, .blockFailCount],
      (upNext idle (.read (regAddr r))).Idle ∧ (upNext idle (.read (regAddr r))).inputs = [.read (regAddr r)] := by
  decide

theorem witness_RegisterWrites :
    ∀ r ∈ [Reg.ctrl, .status, .silenceThr, .baud, .errIndex],
      (upNext idle (.write (regAddr r) 0xFFFFFFFF#32)).Idle ∧ r ≠ .cmd := by decide

/-- The first and the last element. -/
theorem witness_SampleWriteThenRead :
    small.Legal ∧ ∀ k ∈ [0, 63], k < idle.params.maxSamples ∧
      (upNext idle (.write (elementAddr .samp k 0) 0x8000#32)).Idle := by decide

theorem witness_SymbolBitAndByteWritesThenRead :
    small.Legal ∧ ∀ w ∈ [Window.sym, .bit, .byte], ∀ k ∈ [0, 63], k < idle.params.maxSamples ∧
      (upNext idle (.write (elementAddr w k 0) 0x1FF#32)).Idle ∧
      (upNext idle (.read (elementAddr w k 0))).inputs = [.read (elementAddr w k 0)] := by decide

/-- The last word of the last element. -/
theorem witness_RecordWordsAreReadOnlyViews :
    small.Legal ∧ idle.Idle ∧ 3 < 4 ∧ 63 < idle.params.maxSamples ∧ 255 < windowCapacity idle.params .blk ∧
    (upNext idle (.write (elementAddr .blk 255 3) 1#32)).inputs = [.write (elementAddr .blk 255 3) 1#32] ∧
    (upNext idle (.read (elementAddr .xing 63 3))).inputs = [.read (elementAddr .xing 63 3)] := by decide

theorem witness_IrqFollowsCompletion :
    (∃ t, exec .frame (busy 5#32) = .next t) ∧ (∃ t, exec .reset (busy 0xF#32) = .next t) ∧
    (0x2#32 : Word).getLsbD 1 = true ∧ idle.rst = false := ⟨⟨_, rfl⟩, ⟨_, rfl⟩, rfl, rfl⟩

/-- The reset input rises on a busy core; an access, an engine's turn and the release under reset. -/
theorem witness_ResetInputResetsAtAnyTime :
    (upNext (busy 1#32) (.rst true)).inputs = [.rst true] ∧
    (resetInput true (busy 1#32)).rst = true ∧ (resetInput true (busy 1#32)).inputs = [] ∧
    (upNext (resetInput true (busy 1#32)) (.write 0x010#32 1#32)).rst = true ∧
    (upNext (resetInput true (busy 1#32)) .engine).inputs = [.engine] ∧
    (upNext (resetInput true (busy 1#32)) (.rst false)).inputs = [.rst false] := by decide

theorem witness_ResetStateReadsAsTabled : Reg.status ≠ .id ∧ Reg.status ≠ .silenceThr := by decide

theorem witness_ResetCommandResult : ∃ t, exec .reset (busy 0xF#32) = .next t := ⟨_, rfl⟩

theorem witness_NopAndIllegalCommandResults :
    ∀ i ∈ [Instr.reserved7, .reservedE, .illegal 0x10#32],
      i ∈ [.reserved7, .reserved8, .reserved9, .reservedA, .reservedB, .reservedC, .reservedD, .reservedE,
        Instr.illegal 0x10#32] := by decide

theorem witness_TrimKeepsFromFirstToLastLoudSample :
    (∀ v ∈ ([4, -4] : List Int), v.natAbs < 5) ∧
    ∃ u v : Int, ([1, -5, 2, 5, 0] : List Int)[1]? = some u ∧ ([1, -5, 2, 5, 0] : List Int)[3]? = some v ∧
      5 ≤ u.natAbs ∧ 5 ≤ v.natAbs ∧
      ∀ (k : Nat) (x : Int), ([1, -5, 2, 5, 0] : List Int)[k]? = some x → k < 1 ∨ 3 < k → x.natAbs < 5 := by
  refine ⟨by decide, -5, 5, rfl, rfl, by decide, by decide, fun k x h hk => ?_⟩
  have hk5 : k = 0 ∨ k = 4 := by have := (List.getElem?_eq_some_iff.1 h).1; simp at this; omega
  rcases hk5 with rfl | rfl <;> (simp at h; subst h; decide)

/-- A zero between two negative samples, and two crossings apart. -/
theorem witness_CrossingPositionsNeverDecrease :
    ((crossings [-5, 0, -3]).map (fun c => c.rising) = [true, false]) ∧
    (crossings [-5, 0, -3])[0]? = some { index := 0, p := 5, q := 5, rising := true } ∧
    (crossings [-5, 0, -3])[1]? = some { index := 1, p := 0, q := 3, rising := false } ∧
    (crossings [2, -2, 2])[0]? = some { index := 0, p := 2, q := 4, rising := false } ∧
    (crossings [2, -2, 2])[1]? = some { index := 1, p := 2, q := 4, rising := true } := by decide

/-- As many samples as fit, and no sample. -/
theorem witness_ExtractResult :
    ∀ n ∈ [0, 64], (given (mono n 0) Memory.empty).regs.format.channels = 1 ∧
      (given (mono n 0) Memory.empty).regs.format.compressed = false ∧
      (given (mono n 0) Memory.empty).regs.sampleCount.toNat ≤ small.maxSamples := by decide

theorem witness_ExtractErrors :
    idle.regs.format.channels ≠ 1 ∧ (given (mono 65 0) Memory.empty).regs.format.channels = 1 ∧
    (given (mono 65 0) Memory.empty).regs.format.compressed = false ∧
    small.maxSamples < (given (mono 65 0) Memory.empty).regs.sampleCount.toNat := by decide

theorem witness_ExtractFrame : ∃ t, exec .extract (recording [-1, 1] 0) = .next t := ⟨_, rfl⟩

theorem witness_ExtractTwiceIsExtractOnce : ∃ t, exec .extract (recording [2, -2, 2, -2] 0) = .next t := ⟨_, rfl⟩

/-- The two crossings of [-5, 0, -3], both at position 1. -/
def touching : List Crossing := crossings [-5, 0, -3]

/-- Two crossings apart (clause 2), and two at the same position, the first such pair (clause 1). -/
theorem witness_EstimatesAreExact :
    (∀ c ∈ p1Crossings.take 2, 1 ≤ c.q) ∧
    (∀ (k : Nat) (c1 c2 : Crossing), (p1Crossings.take 2)[k]? = some c1 → (p1Crossings.take 2)[k + 1]? = some c2 →
      c1.pos ≤ c2.pos ∧ c1.pos ≠ c2.pos) ∧
    (∀ c ∈ touching, 1 ≤ c.q) ∧
    ∀ (k : Nat) (c1 c2 : Crossing), touching[k]? = some c1 → touching[k + 1]? = some c2 →
      c1.pos ≤ c2.pos ∧ k = 0 ∧ c1.pos = c2.pos := by
  have only : ∀ (cs : List Crossing) (k : Nat) (c : Crossing), cs.length = 2 → cs[k + 1]? = some c → k = 0 :=
    fun cs k c hl h => by have := (List.getElem?_eq_some_iff.1 h).1; omega
  refine ⟨by decide, fun k c1 c2 h1 h2 => ?_, by decide, fun k c1 c2 h1 h2 => ?_⟩
  · obtain rfl := only _ k c2 rfl h2
    simp [p1Crossings] at h1 h2
    subst h1 h2
    constructor <;> norm_num [Crossing.pos]
  · obtain rfl := only _ k c2 rfl h2
    simp [touching, crossings, crossingsFrom, signChange, crossingRecord] at h1 h2
    subst h1 h2
    refine ⟨?_, rfl, ?_⟩ <;> norm_num [Crossing.pos]

theorem witness_BucketIsTheNearestHundred : 0 < ({ num := 1050, den := 1 } : Freq).den := by decide

/-- Both ends of every range. -/
theorem witness_ToneMapping :
    (1800 < ({ num := 18001, den := 10 } : Freq).value) ∧
    (({ num := 1800, den := 1 } : Freq).value ≤ 1800 ∧ 900 < ({ num := 9001, den := 10 } : Freq).value) ∧
    (({ num := 900, den := 1 } : Freq).value ≤ 900 ∧ 450 < ({ num := 4501, den := 10 } : Freq).value) ∧
    ({ num := 450, den := 1 } : Freq).value ≤ 450 := by
  norm_num [Freq.value]

/-- The core with crossings to classify at 4800 Hz. -/
def crossed (cs : List Crossing) : State :=
  given { regs0 with sampleRate := 4800, xingCount := natWord cs.length } { Memory.empty with xing := filled cs }

/-- The estimates of P1: 1200, 1200 and 600 Hz. -/
def p1Estimates : List Freq :=
  [{ num := 192000000, den := 160000 }, { num := 192000000, den := 160000 }, { num := 192000000, den := 320000 }]

theorem witness_ClassifyResult :
    (crossed p1Crossings).regs.sampleRate ≠ 0 ∧
    estimates (crossed p1Crossings).regs.sampleRate.toNat
      ((List.range (crossed p1Crossings).regs.xingCount.toNat).map (crossed p1Crossings).xing) = .ok p1Estimates ∧
    inferBaud (histogram p1Estimates) = .baud .baud1200 ∧
    p1Estimates.map (mapSymbol .baud1200) = [Tone.high, .high, .low].map some := by decide

theorem witness_ClassifyErrorsBeforeTheHistogram :
    idle.regs.sampleRate = 0 ∧ (crossed zeroIntervalCrossings).regs.sampleRate ≠ 0 ∧
    estimates (crossed zeroIntervalCrossings).regs.sampleRate.toNat
      ((List.range (crossed zeroIntervalCrossings).regs.xingCount.toNat).map (crossed zeroIntervalCrossings).xing) =
        .zeroInterval 1 := by decide

/-- One crossing more, 12 samples on: the estimates are 1200, 1200, 600 and 200 Hz. -/
def slowCrossings : List Crossing := p1Crossings ++ [{ index := 20, p := 100, q := 200, rising := false }]

/-- The estimates of `slowCrossings`. -/
def slowEstimates : List Freq := p1Estimates ++ [{ num := 192000000, den := 960000 }]

/-- A 1200 Hz tone alone, no crossing at all, and a half-cycle of 200 Hz. -/
theorem witness_ClassifyErrorsAfterTheHistogram :
    (estimates 4800 ((List.range 3).map (crossed (p1Crossings.take 3)).xing) = .ok (p1Estimates.take 2) ∧
      inferBaud (histogram (p1Estimates.take 2)) = .only1200) ∧
    (estimates 4800 ((List.range 0).map (crossed []).xing) = .ok [] ∧ inferBaud (histogram []) = .no1200) ∧
    (estimates 4800 ((List.range 5).map (crossed slowCrossings).xing) = .ok slowEstimates ∧
      inferBaud (histogram slowEstimates) = .baud .baud1200 ∧
      slowEstimates[3]? = some { num := 192000000, den := 960000 } ∧
      mapSymbol .baud1200 { num := 192000000, den := 960000 } = none ∧
      (slowEstimates.take 3).map (mapSymbol .baud1200) = [Tone.high, .high, .low].map some) := by decide

/-- Samples whose crossings are `slowCrossings`. -/
def slowSamples : List Int :=
  [100, -100, -100, 100, 100] ++ List.replicate 4 (-100) ++ List.replicate 12 100 ++ [-100]

/-- The half-cycle of 200 Hz as CLASSIFY and as `decode` meet it; the estimates before it are above 450 Hz. -/
theorem witness_UnidentifiedToneIsReportedExactly :
    (inferBaud (histogram slowEstimates) = .baud .baud1200 ∧
      slowEstimates[3]? = some { num := 192000000, den := 960000 } ∧ (crossed slowCrossings).regs.sampleRate ≠ 0 ∧
      estimates 4800 ((List.range 5).map (crossed slowCrossings).xing) = .ok slowEstimates ∧
      estimates 4800 (crossings (trim slowSamples 0).2) = .ok slowEstimates) ∧
    ({ num := 192000000, den := 960000 } : Freq).value ≤ 450 ∧
    ∀ (i : Nat) (g : Freq), i < 3 → slowEstimates[i]? = some g → 450 < g.value := by
  refine ⟨by decide, by norm_num [Freq.value], fun i g hi hg => ?_⟩
  have h3 : i = 0 ∨ i = 1 ∨ i = 2 := by omega
  rcases h3 with rfl | rfl | rfl <;> (cases hg; norm_num [Freq.value])

theorem witness_ClassifyFrame : ∃ t, exec .classify (crossed p1Crossings) = .next t := ⟨_, rfl⟩

theorem witness_BitDecoderFailsAtTheFirstBadToken :
    bitDecode .baud1200 [.low, .high, .low] = ([false], some (1, [.high, .low])) ∧
    bitDecode .baud300 (List.replicate 9 .low) = ([false], some (8, [.low])) := by decide

theorem witness_BitdecResult :
    (tones 2 [true, false, true]).regs.baud = 2#2 ∧
    (tones 2 [true, false, true]).regs.symCount.toNat ≤ small.maxSamples ∧
    bitDecode .baud1200 ((List.range 3).map (tones 2 [true, false, true]).sym) = ([false], none) := by decide

/-- Both unknown codes, a count of MAX_SAMPLES + 1, and a malformed sequence. -/
theorem witness_BitdecErrors :
    ((tones 0 []).regs.baud ≠ 1 ∧ (tones 3 []).regs.baud ≠ 1 ∧ (tones 0 []).regs.baud ≠ 2 ∧
      (tones 3 []).regs.baud ≠ 2) ∧
    ((tones 1 (List.replicate 65 true)).regs.baud = 1 ∧
      small.maxSamples < (tones 1 (List.replicate 65 true)).regs.symCount.toNat) ∧
    ((tones 2 [false, true, false]).regs.symCount.toNat ≤ small.maxSamples ∧
      bitDecode .baud1200 ((List.range 3).map (tones 2 [false, true, false]).sym) =
        ([false], some (1, [.high, .low]))) := by decide

theorem witness_BitdecFrame :
    (∃ t, exec .bitdec (tones 2 [false, true, false]) = .next t) ∧
    Baud.ofCode (tones 2 [false, true, false]).regs.baud = some .baud1200 ∧
    Baud.ofCode (tones 0 []).regs.baud = none := ⟨⟨_, rfl⟩, rfl, rfl⟩

theorem witness_FramerReadsBackEveryByte : (List.replicate 10 true).length < 11 := by decide

/-- As many bits as fit, and one more. -/
theorem witness_FrameResult :
    (bitstream (List.replicate 64 true)).regs.bitCount.toNat ≤ small.maxSamples ∧
    small.maxSamples < (bitstream (List.replicate 65 true)).regs.bitCount.toNat := by decide

theorem witness_FrameFrame : ∃ t, exec .frame (bitstream (List.replicate 11 true)) = .next t := ⟨_, rfl⟩

theorem witness_ChecksumClosedForm :
    ([1, 2] : List Byte).Perm [2, 1] ∧ checksum ([5] ++ (7 : Byte) :: [9]) = checksum ([5] ++ (7 : Byte) :: [9]) :=
  ⟨List.Perm.swap _ _ _, rfl⟩

/-- The shortest stream for a declared length of 0, and P3's for a length of 3. -/
theorem witness_AssembleReadsHeaderAndBlocks :
    (118 ≤ (List.replicate 118 (0 : Byte)).length ∧
      blocksFor (((List.replicate 118 (0 : Byte)).getD 108 0).toNat +
        256 * ((List.replicate 118 (0 : Byte)).getD 109 0).toNat) = 0) ∧
    (118 ≤ p3Bytes.length ∧ (p3Bytes.getD 108 0).toNat + 256 * (p3Bytes.getD 109 0).toNat = 3 ∧
      ∀ k, k < blocksFor 3 → 219 + 257 * k + blockLen 3 k < p3Bytes.length) := by decide +kernel

/-- A stream that declares 300 bytes and ends with the checksum byte of its first block. -/
def oneBlockOfTwo : List Byte := List.replicate 108 0 ++ [0x2C, 0x01] ++ List.replicate 366 0

/-- One byte short of the header, one byte short of P3's block, and a stream that ends between its two blocks. -/
theorem witness_AssembleReportsTheFirstMissingBytes :
    (List.replicate 117 (0 : Byte)).length < 118 ∧
    (118 ≤ (p3Bytes.take 222).length ∧
      ((p3Bytes.take 222).getD 108 0).toNat + 256 * ((p3Bytes.take 222).getD 109 0).toNat = 3 ∧ 0 < blocksFor 3 ∧
      (p3Bytes.take 222).length ≤ 219 + 257 * 0 + blockLen 3 0) ∧
    (118 ≤ oneBlockOfTwo.length ∧ (oneBlockOfTwo.getD 108 0).toNat + 256 * (oneBlockOfTwo.getD 109 0).toNat = 300 ∧
      1 < blocksFor 300 ∧ oneBlockOfTwo.length ≤ 219 + 257 * 1 + blockLen 300 1 ∧
      ∀ j, j < 1 → 219 + 257 * j + blockLen 300 j < oneBlockOfTwo.length) := by decide +kernel

/-- Whether a byte stream held an image. -/
def isImage (a : Assembled) : Bool :=
  match a with
  | .image _ _ => true
  | .truncated _ _ => false

theorem eq_image_of_isImage {a : Assembled} (h : isImage a = true) : ∃ hdr blocks, a = .image hdr blocks := by
  cases a with
  | image hdr blocks => exact ⟨hdr, blocks, rfl⟩
  | truncated _ _ => cases h

theorem witness_AssembleResult :
    ∃ hdr blocks, (byteStream p3Bytes).regs.byteCount.toNat ≤ (byteStream p3Bytes).params.maxSamples ∧
      assemble ((List.range (byteStream p3Bytes).regs.byteCount.toNat).map (byteStream p3Bytes).byte) =
        .image hdr blocks  := by
  have h : isImage (assemble ((List.range (byteStream p3Bytes).regs.byteCount.toNat).map (byteStream p3Bytes).byte)) =
      true := by decide +kernel
  obtain ⟨hdr, blocks, e⟩ := eq_image_of_isImage h
  exact ⟨hdr, blocks, by decide +kernel, e⟩

theorem witness_AssembleErrors :
    (byteStream (List.replicate 257 0)).params.maxSamples <
      (byteStream (List.replicate 257 0)).regs.byteCount.toNat ∧
    ∃ e blocks, (byteStream []).regs.byteCount.toNat ≤ (byteStream []).params.maxSamples ∧
      assemble ((List.range (byteStream []).regs.byteCount.toNat).map (byteStream []).byte) = .truncated e blocks :=
  ⟨by decide +kernel, _, _, by decide, rfl⟩

theorem witness_AssembleFrame : ∃ t, exec .assemble (byteStream p3Bytes) = .next t := ⟨_, rfl⟩

/-- Every hypothesis, with an input that ends in an error and the recording of table 2.7 that reaches the assembler. -/
theorem witness_DecodeRefinesThePureDecoder :
    ∀ s ∈ [recording [] 0, recording [100, -100, -100, 100, 100, -100, -100, -100, -100, 100] 0],
      s.regs.status.err = false ∧ s.regs.status.histValid = false ∧
        s.regs.sampleCount.toNat ≤ s.params.maxSamples ∧ s.regs.sampleRate ≠ 0 := by decide

theorem witness_DecodeConfigurationErrors :
    idle.regs.format.channels ≠ 1 ∧
    ((given (mono 65 0) Memory.empty).regs.format.channels = 1 ∧
      small.maxSamples < (given (mono 65 0) Memory.empty).regs.sampleCount.toNat) ∧
    ((given { mono 64 0 with sampleRate := 0 } Memory.empty).regs.sampleCount.toNat ≤ small.maxSamples ∧
      (given { mono 64 0 with sampleRate := 0 } Memory.empty).regs.sampleRate = 0) ∧
    (ends (exec .decode (given { mono 64 0 with sampleRate := 0 } Memory.empty)) (fun t =>
      t.regs.status.errCode == 8)) = true := by decide

theorem witness_DecodeFrame : ∃ t, exec .decode (recording [-5, 0, -3] 0) = .next t := ⟨_, rfl⟩

theorem witness_ImageValidOnlyWithoutError :
    decodeCmd 6#32 ∈ [Instr.decode, .extract, .classify, .bitdec, .frame, .assemble] ∧
    ends (exec (decodeCmd 6#32) ((byteStream p3Bytes).accept 6#32)) (fun t => t.regs.status.imageValid) = true := by
  decide +kernel

/-- A buffer with elements, and the step that writes between them. -/
theorem witness_StepKeepsBuffersCanonical :
    (upNext (given regs0 { Memory.empty with samp := [(1, 5), (3, -5)] }) (.write (elementAddr .samp 2 0) 7#32)).mem.wf ∧
    ∃ t, step (upNext (given regs0 { Memory.empty with samp := [(1, 5), (3, -5)] })
      (.write (elementAddr .samp 2 0) 7#32)) = .next t := ⟨by decide, _, rfl⟩

/-- A core with a command pending, and the step that performs it. -/
theorem witness_StepKeepsTheCommandProtocol :
    (busy 7#32).ProtocolInv ∧ (busy 7#32).ResetInv ∧ ∃ t, step (busy 7#32) = .next t :=
  ⟨⟨by decide, by decide, by decide, by decide, by decide⟩, fun h => absurd h (by decide), _, rfl⟩

/-- A block of three bytes whose checksum byte is wrong. -/
def failedBlock : BlockEntry := { offset := 219, length := 3, computed := 1, stored := 2, ok := false }

/-- A core whose histogram is valid. -/
def withHistogram : State :=
  given { regs0 with status := { Status.reset with histValid := true }, histCount := 2, estTotal := 3 }
    { Memory.empty with hist := filled [{ bucket := 1200, count := 2 }, { bucket := 600, count := 1 }] }

/-- A core whose image is valid, with one failed block. -/
def withImage : State :=
  given
    { regs0 with
      status := { Status.reset with imageValid := true }, hdrLength := 3, blockCount := 1, blockFailCount := 1
      hdrCksum := { computed := 7, stored := 7, ok := true } }
    { Memory.empty with blk := filled [failedBlock] }

/-- The two validity flags, set and telling the truth. -/
theorem witness_StepKeepsTheValidityFlagsTrue :
    (withHistogram.HistInv ∧ ∃ t, step withHistogram = .next t) ∧ withImage.ImageInv ∧ ∃ t, step withImage = .next t :=
  ⟨⟨fun _ => by decide, _, rfl⟩, fun _ => by decide, _, rfl⟩

/-- A core with a sample, a crossing and a block at the edges of their bounds. -/
def withEdges : State :=
  given { regs0 with xingCount := 1 } { Memory.empty with
    samp := [(63, -32768)], xing := [(0, { index := 62, p := 32768, q := 65535, rising := true })]
    blk := [(255, { offset := 65754, length := 255, computed := 1, stored := 2, ok := false })] }

/-- The bounds on the data hold of it. -/
theorem witness_StepKeepsTheDataInBounds : State.DataInv withEdges ∧ ∃ t, step withEdges = .next t := by
  refine ⟨⟨by decide, by decide, ?_, by decide, by decide, by decide, by decide, by decide, by decide, by decide,
    fun k hk => ?_, fun k hk => ?_⟩, _, rfl⟩
  · simp [withEdges, given, Crossing.Legal, idle, small]
  · have : k = 0 := by simp [withEdges, given] at hk; omega
    subst this; rfl
  · simp [withEdges, given] at hk

end Sys2Proof.Tests
end

section
/-! SUPPORT. Facts about buffers, registers and records that the invariant on the data and the refinement of DECODE share. -/

namespace Sys2Proof.Machine

/-- A number that fits a register is read back from it (R22). -/
theorem natWord_toNat {n : Nat} (h : n < 2 ^ 32) : (natWord n).toNat = n := by
  simpa [natWord] using Nat.mod_eq_of_lt h

/-- A sequence written from element 0 on is read back as it was written. -/
theorem readFrom_writePrefix {α : Type} (d : Nat → α) (b : Buf α) (vs : List α) :
    Buf.readFrom d (Buf.writePrefix b vs) 0 vs.length = vs := by
  apply List.ext_getElem (by simp)
  intro i _ hi
  simp [readFrom_eq, read?_writePrefix, hi]

/-- The mapping yields at most one symbol for each estimate. -/
theorem mapSymbols_length_le (b : Baud) (j : Nat) (es : List Freq) : (mapSymbols b j es).1.length ≤ es.length := by
  rcases mapSymbols_cases b j es with ⟨syms, h, hs⟩ | ⟨syms, k, f, h, _, _, hs⟩
  · have := congrArg List.length hs
    simp only [List.length_map] at this
    simp [h, this]
  · have := congrArg List.length hs
    simp only [List.length_map, List.length_take] at this
    simp only [h]
    omega

/-- The records an assembly has made, whether it ended in an image or in a truncation (R138). -/
def Assembled.blocks (a : Assembled) : List BlockEntry :=
  match a with
  | .truncated _ blocks => blocks
  | .image _ blocks => blocks

/-- The records come from the block loop over some 16-bit length, or there are none. -/
theorem assemble_blocks (y : List Byte) :
    (assemble y).blocks = [] ∨
      ∃ len : BitVec 16, (assemble y).blocks = (assembleBlocks y len.toNat len.toNat firstBlockOffset 0).1 := by
  unfold assemble
  split
  · exact .inl rfl
  · refine .inr ⟨(parseHeader (slice y headerOffset headerSize) (byteAt y (headerOffset + headerSize))).length, ?_⟩
    simp only
    split <;> rfl

/-- No byte stream has more blocks than the block table holds (R13). -/
theorem assemble_blocks_length_le (y : List Byte) : (assemble y).blocks.length ≤ 256 := by
  rcases assemble_blocks y with h | ⟨len, h⟩
  · simp [h]
  · have h1 := assembleBlocks_length_le y len.toNat len.toNat firstBlockOffset 0
    have h2 := len.isLt
    rw [h]
    omega

/-- Every record an assembly makes is the record of the payload it names, of 1 to 256 bytes of the stream. -/
theorem mem_assemble_blocks {y : List Byte} {b : BlockEntry} (hb : b ∈ (assemble y).blocks) :
    b = blockRecord y b.offset b.length ∧ 1 ≤ b.length ∧ b.length ≤ 256 ∧ b.offset + b.length < y.length := by
  rcases assemble_blocks y with h | ⟨len, h⟩
  · simp [h] at hb
  · exact mem_assembleBlocks (h ▸ hb)

end Sys2Proof.Machine
end

section
/-! SUPPORT. The invariant on the data (R9, R33, R44 to R46, R50, R51, R93): what each buffer may hold, what each write and
each stage keeps of it. -/

namespace Sys2Proof.Machine

/-! ## Buffers whose entries are within bounds -/

/-- No entry at or beyond the capacity, and `P` of every element written (R44). -/
def Buf.Within {α : Type} (b : Buf α) (cap : Nat) (P : α → Prop) : Prop := ∀ e ∈ b, e.1 < cap ∧ P e.2

section
variable {α : Type} {b : Buf α} {cap : Nat} {P : α → Prop}

theorem within_nil : Buf.Within ([] : Buf α) cap P := fun _ h => nomatch h

theorem Buf.Within.write (h : Buf.Within b cap P) {k : Nat} {v : α} (hk : k < cap) (hv : P v) :
    Buf.Within (Buf.write b k v) cap P := fun e he => by
  rcases mem_write he with hm | rfl
  · exact h e hm
  · exact ⟨hk, hv⟩

theorem Buf.Within.writePrefix (h : Buf.Within b cap P) {vs : List α} (hl : vs.length ≤ cap) (hv : ∀ v ∈ vs, P v) :
    Buf.Within (Buf.writePrefix b vs) cap P := fun e he => by
  rcases mem_writePrefix he with hm | ⟨h1, h2⟩
  · exact h e hm
  · exact ⟨Nat.lt_of_lt_of_le h1 hl, hv _ h2⟩

theorem Buf.Within.of_read? (h : Buf.Within b cap P) {k : Nat} {v : α} (hr : Buf.read? b k = some v) : P v :=
  (h _ (mem_of_read? hr)).2

end

/-- A signed W-bit value (R45). -/
def IsSample (p : Params) (v : Int) : Prop := -(2 : Int) ^ (p.sampleBits - 1) ≤ v ∧ v < 2 ^ (p.sampleBits - 1)

/-- A histogram entry as CLASSIFY makes it (R50). -/
def HistEntry.Legal (e : HistEntry) : Prop := 1 ≤ e.count ∧ 100 ∣ e.bucket

/-- A block entry as ASSEMBLE makes it (R51). -/
def BlockEntry.Legal (b : BlockEntry) : Prop := 1 ≤ b.length ∧ b.length ≤ 256 ∧ b.ok = (b.computed == b.stored)

/-- Every buffer within its capacity and its elements' bounds. -/
structure Memory.InBounds (p : Params) (m : Memory) : Prop where
  samp : m.samp.Within p.maxSamples (IsSample p)
  xing : m.xing.Within p.maxSamples (Crossing.Legal p)
  sym : m.sym.Within p.maxSamples (fun _ => True)
  bit : m.bit.Within p.maxSamples (fun _ => True)
  byte : m.byte.Within p.maxSamples (fun _ => True)
  hist : m.hist.Within p.maxSamples HistEntry.Legal
  blk : m.blk.Within 256 BlockEntry.Legal

theorem inBounds_empty (p : Params) : Memory.empty.InBounds p :=
  ⟨within_nil, within_nil, within_nil, within_nil, within_nil, within_nil, within_nil⟩

/-- Elements 0 to n - 1 of XING are written, at positions that never decrease (R46, R93). -/
structure CrossingRun (b : Buf Crossing) (n : Nat) : Prop where
  written : ∀ k, k < n → (Buf.read? b k).isSome
  ordered : ∀ k c1 c2, k + 1 < n → Buf.read? b k = some c1 → Buf.read? b (k + 1) = some c2 → c1.NotAfter c2

theorem crossingRun_zero (b : Buf Crossing) : CrossingRun b 0 :=
  ⟨fun _ h => absurd h (by omega), fun _ _ _ h => absurd h (by omega)⟩

/-- A sequence of crossings in order, written from element 0 on, is such a run. -/
theorem crossingRun_writePrefix (b : Buf Crossing) {vs : List Crossing} (h : vs.Pairwise Crossing.NotAfter) :
    CrossingRun (Buf.writePrefix b vs) vs.length where
  written k hk := by simp [read?_writePrefix, hk]
  ordered k c1 c2 hk h1 h2 := by
    have hk' : k < vs.length := by omega
    simp only [read?_writePrefix, hk, hk', dif_pos, Option.some.injEq] at h1 h2
    subst h1 h2
    exact List.pairwise_iff_getElem.1 h k (k + 1) hk' hk (Nat.lt_succ_self k)

/-- The invariant on the data, relative to parameters `p` that no step changes. -/
structure State.Bounded (p : Params) (s : State) : Prop where
  params : s.params = p
  mem : s.mem.InBounds p
  threshold : s.regs.silenceThr.toNat < 2 ^ p.sampleBits
  count : s.regs.xingCount.toNat ≤ p.maxSamples
  run : CrossingRun s.mem.xing s.regs.xingCount.toNat

/-- An element that has been written does not depend on what unwritten elements hold. -/
theorem xing_of_read? {s : State} {k : Nat} {c : Crossing} (h : Buf.read? s.mem.xing k = some c) : s.xing k = c := by
  simp [State.xing, h]

/-- `DataInv` in these terms. -/
theorem dataInv_iff (s : State) : s.DataInv ↔ s.params.Legal ∧ s.Bounded s.params := by
  constructor
  · rintro ⟨hp, samp, xing, sym, bit, byte, hist, blk, thr, count, written, ordered⟩
    refine ⟨hp, rfl, ⟨samp, xing, fun e he => ⟨sym e he, trivial⟩, fun e he => ⟨bit e he, trivial⟩,
      fun e he => ⟨byte e he, trivial⟩, hist, blk⟩, thr, count, written, fun k c1 c2 hk h1 h2 => ?_⟩
    simpa only [xing_of_read? h1, xing_of_read? h2] using ordered k hk
  · rintro ⟨hp, _, m, thr, count, run⟩
    refine ⟨hp, m.samp, m.xing, fun e he => (m.sym e he).1, fun e he => (m.bit e he).1, fun e he => (m.byte e he).1,
      m.hist, m.blk, thr, count, run.written, fun k hk => ?_⟩
    obtain ⟨c1, h1⟩ := Option.isSome_iff_exists.1 (run.written k (by omega))
    obtain ⟨c2, h2⟩ := Option.isSome_iff_exists.1 (run.written (k + 1) hk)
    rw [xing_of_read? h1, xing_of_read? h2]
    exact run.ordered k c1 c2 hk h1 h2

section
variable {p : Params} {s t : State}

/-- What the invariant depends on: a change that keeps XING and its count, the threshold and the parameters needs only the
buffers in bounds. -/
theorem State.Bounded.congr (h : s.Bounded p) (hparams : t.params = s.params) (hmem : t.mem.InBounds p)
    (hthr : t.regs.silenceThr = s.regs.silenceThr) (hcount : t.regs.xingCount = s.regs.xingCount)
    (hxing : t.mem.xing = s.mem.xing) : t.Bounded p where
  params := hparams.trans h.params
  mem := hmem
  threshold := hthr ▸ h.threshold
  count := hcount ▸ h.count
  run := by rw [hxing, hcount]; exact h.run

/-- With XING_COUNT = 0 there is no run of crossings to keep. -/
theorem State.Bounded.of_no_crossings (hparams : t.params = p) (hmem : t.mem.InBounds p)
    (hthr : t.regs.silenceThr.toNat < 2 ^ p.sampleBits) (hcount : t.regs.xingCount = 0) : t.Bounded p where
  params := hparams
  mem := hmem
  threshold := hthr
  count := by simp [hcount]
  run := by rw [hcount]; exact crossingRun_zero _

end

/-! ## What the stages compute is within bounds -/

/-- The low W bits of a word are a W-bit sample. -/
theorem isSample_sampleOfWord (p : Params) (v : Word) : IsSample p (sampleOfWord p.sampleBits v) :=
  ⟨BitVec.le_toInt _, BitVec.toInt_lt⟩

/-- Every element of SAMP reads as a W-bit sample, written or not (R45, R52). -/
theorem State.Bounded.isSample_samp {p : Params} {s : State} (h : s.Bounded p) (k : Nat) : IsSample p (s.samp k) := by
  unfold State.samp
  cases hr : Buf.read? s.mem.samp k with
  | some v => exact h.mem.samp.of_read? hr
  | none => rw [← h.params]; exact isSample_sampleOfWord _ _

/-- A sign change between two W-bit samples makes a legal crossing record (R9, R46, R90). -/
theorem crossingRecord_legal {p : Params} (hp : p.Legal) {a b : Int} (ha : IsSample p a) (hb : IsSample p b)
    (h : signChange a b = true) {i : Nat} (hi : i + 1 < p.maxSamples) : (crossingRecord i a b).Legal p := by
  obtain ⟨hW, -⟩ := hp
  have hpow : 2 ^ p.sampleBits = 2 * 2 ^ (p.sampleBits - 1) := by
    rw [← Nat.pow_succ']; congr 1; omega
  have hcast : (2 : Int) ^ (p.sampleBits - 1) = ((2 ^ (p.sampleBits - 1) : Nat) : Int) := by push_cast; rfl
  have hsign : (a < 0 ∧ 0 ≤ b) ∨ (0 ≤ a ∧ b < 0) := by
    simp only [signChange, bne_iff_ne, ne_eq, decide_eq_decide] at h
    omega
  unfold IsSample at ha hb
  rw [hcast] at ha hb
  simp only [Crossing.Legal, crossingRecord]
  generalize 2 ^ (p.sampleBits - 1) = m at *
  omega

/-- A crossing of an earlier pair of samples is not after one of a later pair: it lies at most one sample after its index
(R93). -/
theorem crossingRecord_notAfter {i j : Nat} (h : i < j) (a b c d : Int) :
    (crossingRecord i a b).NotAfter (crossingRecord j c d) := by
  simp only [Crossing.NotAfter, crossingRecord]
  generalize a.natAbs = p1, b.natAbs = p2, c.natAbs = p3, d.natAbs = p4
  calc (i * (p1 + p2) + p1) * (p3 + p4)
      ≤ ((i + 1) * (p1 + p2)) * (p3 + p4) := Nat.mul_le_mul_right _ (by rw [Nat.add_mul]; omega)
    _ ≤ (j * (p1 + p2)) * (p3 + p4) := Nat.mul_le_mul_right _ (Nat.mul_le_mul_right _ h)
    _ = (j * (p3 + p4)) * (p1 + p2) := Nat.mul_right_comm _ _ _
    _ ≤ (j * (p3 + p4) + p3) * (p1 + p2) := Nat.mul_le_mul_right _ (Nat.le_add_right _ _)

/-- The crossings of a sequence are in order (R91, R93). -/
theorem crossingsFrom_pairwise (i : Nat) (t : List Int) : (crossingsFrom i t).Pairwise Crossing.NotAfter := by
  induction t generalizing i with
  | nil => exact List.Pairwise.nil
  | cons a t ih =>
    cases t with
    | nil => exact List.Pairwise.nil
    | cons b rest =>
      rw [crossingsFrom]
      split
      · refine List.pairwise_cons.2 ⟨fun c hc => ?_, ih (i + 1)⟩
        obtain ⟨k, _, _, _, _, _, rfl⟩ := mem_crossingsFrom hc
        exact crossingRecord_notAfter (by omega) _ _ _ _
      · exact ih (i + 1)

theorem crossings_pairwise (t : List Int) : (crossings t).Pairwise Crossing.NotAfter := crossingsFrom_pairwise 0 t

/-- The crossings of at most MAX_SAMPLES W-bit samples are legal records. -/
theorem legal_of_mem_crossings {p : Params} (hp : p.Legal) {t : List Int} (ht : ∀ v ∈ t, IsSample p v)
    (hl : t.length ≤ p.maxSamples) {c : Crossing} (hc : c ∈ crossings t) : c.Legal p := by
  obtain ⟨k, a, b, ha, hb, hs, rfl⟩ := mem_crossingsFrom hc
  obtain ⟨hk, -⟩ := List.getElem?_eq_some_iff.1 hb
  exact crossingRecord_legal hp (ht a (List.mem_of_getElem? ha)) (ht b (List.mem_of_getElem? hb)) hs (by omega)

/-- Every record an assembly makes is a legal one. -/
theorem legal_of_mem_assemble {y : List Byte} {b : BlockEntry} (hb : b ∈ (assemble y).blocks) : b.Legal := by
  obtain ⟨hrec, h1, h2, -⟩ := mem_assemble_blocks hb
  refine ⟨h1, h2, ?_⟩
  rw [hrec]
  rfl

/-! ## The stages -/

/-- A stage ends, done or raised, in a state that meets the invariant. -/
abbrev Stage.Bounded (p : Params) (x : Stage) : Prop := Ends x (State.Bounded p) (fun t _ => t.Bounded p)

section
variable {p : Params} {s : State}

theorem extractBody_bounded (hp : p.Legal) (h : s.Bounded p) : (extractBody s).Bounded p := by
  rcases extractBody_cases s with ⟨_, e⟩ | ⟨_, _, e⟩ | ⟨_, hn, kept, hk, e⟩ <;> rw [e]
  · exact .of_no_crossings h.params h.mem h.threshold rfl
  · exact .of_no_crossings h.params h.mem h.threshold rfl
  · rw [h.params] at hn
    have hlen : kept.2.length ≤ p.maxSamples := by
      have := trim_length_le (s.samples s.regs.sampleCount.toNat) s.regs.silenceThr.toNat
      rw [samples_length, ← hk] at this
      omega
    have hsamp : ∀ v ∈ kept.2, IsSample p v := fun v hv => by
      have hm := mem_of_mem_trim (hk ▸ hv)
      rw [samples_eq, List.mem_map] at hm
      obtain ⟨k, -, rfl⟩ := hm
      exact h.isSample_samp k
    have hcount : (crossings kept.2).length ≤ p.maxSamples := (crossings_length_le _).trans (by omega)
    have hword : (natWord (crossings kept.2).length).toNat = (crossings kept.2).length :=
      natWord_toNat (by obtain ⟨_, _, _, hmax, _⟩ := hp; omega)
    have hxing := h.mem.xing.writePrefix hcount fun c hc => legal_of_mem_crossings hp hsamp hlen hc
    refine ⟨h.params, { h.mem with xing := hxing }, h.threshold, ?_, ?_⟩
    · simpa [hword] using hcount
    · simpa [hword] using crossingRun_writePrefix s.mem.xing (crossings_pairwise kept.2)

theorem mapStage_bounded (b : Baud) {es : List Freq} (hes : es.length ≤ p.maxSamples) (h : s.Bounded p) :
    (mapStage b es s).Bounded p := by
  have hlen := mapSymbols_length_le b 0 es
  rcases mapStage_cases b es s with ⟨syms, hm, e⟩ | ⟨syms, j, f, hm, e⟩ <;>
  · rw [hm] at hlen
    rw [e]
    exact h.congr rfl { h.mem with sym := h.mem.sym.writePrefix (hlen.trans hes) fun _ _ => trivial } rfl rfl rfl

theorem classifyEstimates_bounded {es : List Freq} (hes : es.length ≤ p.maxSamples) (h : s.Bounded p) :
    (classifyEstimates es s).Bounded p := by
  have hhist : (s.setHistogram es.length (histogram es)).mem.InBounds p :=
    { h.mem with hist := h.mem.hist.writePrefix ((histogram_length_le es).trans hes) fun _ he => mem_histogram he }
  rcases classifyEstimates_cases es s with ⟨r, _, e⟩ | ⟨b, _, e⟩ <;> rw [e]
  · exact h.congr rfl hhist rfl rfl rfl
  · exact mapStage_bounded b hes (h.congr rfl hhist rfl rfl rfl)

theorem classifyBody_bounded (h : s.Bounded p) : (classifyBody s).Bounded p := by
  rcases classifyBody_cases s with ⟨_, e⟩ | ⟨_, ⟨j, _, e⟩ | ⟨es, hes, e⟩⟩ <;> rw [e]
  · exact h.congr rfl h.mem rfl rfl rfl
  · exact h.congr rfl h.mem rfl rfl rfl
  · refine classifyEstimates_bounded ?_ h
    obtain ⟨-, rfl⟩ := estimates_ok hes
    have := h.count
    simp only [estimateList_length, xings_length]
    omega

theorem decodeStage_bounded (b : Baud) {syms : List Tone} (hsyms : syms.length ≤ p.maxSamples) (h : s.Bounded p) :
    (decodeStage b syms s).Bounded p := by
  have hlen := bitDecode_length_le b syms
  rcases decodeStage_cases b syms s with ⟨bits, hd, e⟩ | ⟨bits, q, ctx, hd, e⟩ <;>
  · rw [hd] at hlen
    rw [e]
    exact h.congr rfl { h.mem with bit := h.mem.bit.writePrefix (hlen.trans hsyms) fun _ _ => trivial } rfl rfl rfl

theorem bitdecBody_bounded (h : s.Bounded p) : (bitdecBody s).Bounded p := by
  rcases bitdecBody_cases s with ⟨_, e⟩ | ⟨b, _, ⟨_, e⟩ | ⟨hn, e⟩⟩ <;> rw [e]
  · exact h.congr rfl h.mem rfl rfl rfl
  · exact h.congr rfl h.mem rfl rfl rfl
  · exact decodeStage_bounded b (by rw [syms_length, ← h.params]; exact hn) h

theorem frameBody_bounded (h : s.Bounded p) : (frameBody s).Bounded p := by
  rcases frameBody_cases s with ⟨_, e⟩ | ⟨hn, y, hy, e⟩ <;> rw [e]
  · exact h.congr rfl h.mem rfl rfl rfl
  · have hlen : y.length ≤ p.maxSamples := by
      rw [h.params] at hn
      rw [hy, frame_length, bits_length]
      omega
    exact h.congr rfl { h.mem with byte := h.mem.byte.writePrefix hlen fun _ _ => trivial } rfl rfl rfl

theorem assembleBody_bounded (h : s.Bounded p) : (assembleBody s).Bounded p := by
  have hblk : (s.writeBlocks (assemble (s.bytes s.regs.byteCount.toNat)).blocks).mem.InBounds p :=
    { h.mem with
      blk := h.mem.blk.writePrefix (assemble_blocks_length_le _) fun _ hb => legal_of_mem_assemble hb }
  rcases assembleBody_cases s with ⟨_, e⟩ | ⟨_, ⟨k, blocks, ha, e⟩ | ⟨hdr, blocks, ha, e⟩⟩ <;> rw [e]
  · exact h.congr rfl h.mem rfl rfl rfl
  · rw [ha] at hblk
    exact h.congr rfl hblk rfl rfl rfl
  · rw [ha] at hblk
    exact h.congr rfl hblk rfl rfl rfl

theorem pipeline_bounded (hp : p.Legal) (h : s.Bounded p) : (pipeline s).Bounded p :=
  ends_andThen (ends_andThen (ends_andThen (ends_andThen (extractBody_bounded hp h) fun _ => classifyBody_bounded)
    fun _ => bitdecBody_bounded) fun _ => frameBody_bounded) fun _ => assembleBody_bounded

theorem decodeBody_bounded (hp : p.Legal) (h : s.Bounded p) : (decodeBody s).Bounded p := by
  have hclear : s.clearOutputs.Bounded p := .of_no_crossings h.params h.mem h.threshold rfl
  rcases decodeBody_cases s with ⟨_, e⟩ | ⟨_, _, e⟩ | ⟨_, _, _, e⟩ | ⟨_, _, _, e⟩ <;> rw [e]
  · exact hclear
  · exact hclear
  · exact hclear
  · exact pipeline_bounded hp hclear

/-- RESET restores a threshold of W bits (R7, R33). -/
theorem resetBody_bounded (hp : p.Legal) (h : s.Bounded p) : (resetBody s).Bounded p := by
  obtain ⟨_, _, _, _, hthr⟩ := hp
  exact .of_no_crossings h.params h.mem (by simpa [Regs.reset, h.params] using hthr) rfl

/-- Completion touches neither the buffers nor a register the invariant speaks of. -/
theorem complete_bounded {x : Stage} (h : x.Bounded p) : x.complete.Bounded p := by
  cases x with
  | done t => exact State.Bounded.congr (s := t) h rfl h.mem rfl rfl rfl
  | raised t e => exact State.Bounded.congr (s := t) h rfl h.mem rfl rfl rfl

/-! ## The steps -/

/-- Every command ends in a state that meets the invariant. -/
theorem exec_bounded (hp : p.Legal) (h : s.Bounded p) {t : State} (i : Instr) (he : exec i s = .next t) :
    t.Bounded p := by
  have hx : ∃ x : Stage, exec i s = x.finish ∧ x.Bounded p := by
    cases i with
    | nop => exact ⟨_, rfl, h⟩
    | decode => exact ⟨_, rfl, decodeBody_bounded hp h⟩
    | extract => exact ⟨_, rfl, extractBody_bounded hp h⟩
    | classify => exact ⟨_, rfl, classifyBody_bounded h⟩
    | bitdec => exact ⟨_, rfl, bitdecBody_bounded h⟩
    | frame => exact ⟨_, rfl, frameBody_bounded h⟩
    | assemble => exact ⟨_, rfl, assembleBody_bounded h⟩
    | reset => exact ⟨_, rfl, resetBody_bounded hp h⟩
    | reserved7 | reserved8 | reserved9 | reservedA | reservedB | reservedC | reservedD | reservedE | illegal w =>
      exact ⟨illegalBody s, rfl, h⟩
  obtain ⟨x, hex, hb⟩ := hx
  rw [hex, finish_eq] at he
  injection he with he
  exact he ▸ complete_bounded hb

theorem engineTurn_bounded (hp : p.Legal) (h : s.Bounded p) {t : State} (he : engineTurn s = .next t) : t.Bounded p := by
  rcases engineTurn_cases s with ⟨w, _, _, e⟩ | ⟨_, e⟩ <;> rw [e] at he
  · exact exec_bounded hp h _ he
  · injection he with he
    exact he ▸ h

theorem hostRead_bounded (h : s.Bounded p) (a : Word) : (hostRead a s).Bounded p := by
  obtain ⟨v, e | e⟩ := hostRead_cases a s <;> rw [e] <;> exact h.congr rfl h.mem rfl rfl rfl

/-- A register write: SILENCE_THR keeps the low W bits of the word (R33), every other one leaves the data alone. -/
theorem writeReg_bounded (h : s.Bounded p) (r : Reg) (v : Word) : (writeReg r v s).Bounded p := by
  cases r with
  | silenceThr =>
    refine ⟨h.params, h.mem, ?_, h.count, h.run⟩
    simp only [writeReg, setRegs_regs, BitVec.toNat_setWidth, h.params]
    exact (Nat.mod_le _ _).trans_lt (Nat.mod_lt _ (Nat.two_pow_pos _))
  | _ => exact h.congr rfl h.mem rfl rfl rfl

/-- An element write below the capacity of its buffer. -/
theorem writeElement_bounded (h : s.Bounded p) (w : Window) {k : Nat} (v : Word) (hk : k < windowCapacity s.params w) :
    (writeElement w k v s).Bounded p := by
  rw [h.params] at hk
  cases w with
  | samp =>
    have hv : IsSample p (sampleOfWord s.params.sampleBits v) := h.params ▸ isSample_sampleOfWord _ v
    exact h.congr rfl { h.mem with samp := h.mem.samp.write hk hv } rfl rfl rfl
  | sym => exact h.congr rfl { h.mem with sym := h.mem.sym.write hk trivial } rfl rfl rfl
  | bit => exact h.congr rfl { h.mem with bit := h.mem.bit.write hk trivial } rfl rfl rfl
  | byte => exact h.congr rfl { h.mem with byte := h.mem.byte.write hk trivial } rfl rfl rfl
  | xing | hist | blk => exact h

theorem hostWrite_bounded (h : s.Bounded p) (a v : Word) : (hostWrite a v s).Bounded p := by
  rcases hostWrite_cases a v s with
    ⟨_, e⟩ | ⟨_, _, e | e | e⟩ | ⟨_, _, ⟨r, e⟩ | ⟨w, k, hk, e⟩ | e⟩ <;> rw [e]
  · exact h
  · exact writeReg_bounded h _ v
  · exact writeReg_bounded h _ v
  · exact h.congr rfl h.mem rfl rfl rfl
  · exact writeReg_bounded h r v
  · exact writeElement_bounded h w v hk
  · exact h

/-- The reset input empties the buffers and restores a threshold of W bits (R162). -/
theorem resetInput_bounded (hp : p.Legal) (h : s.Bounded p) (level : Bool) : (resetInput level s).Bounded p := by
  cases level with
  | false => exact h.congr rfl h.mem rfl rfl rfl
  | true =>
    obtain ⟨_, _, _, _, hthr⟩ := hp
    exact .of_no_crossings h.params (inBounds_empty p) (by simpa [resetInput, Regs.reset, h.params] using hthr) rfl

theorem step_bounded (hp : p.Legal) (h : s.Bounded p) {t : State} (hs : step s = .next t) : t.Bounded p := by
  have hrest : ∀ rest, State.Bounded p { s with inputs := rest } := fun _ => h.congr rfl h.mem rfl rfl rfl
  rcases step_cases hs with ⟨_, he⟩ | ⟨_, rest, _, ⟨_, he⟩ | ⟨a, _, _, rfl⟩ | ⟨a, v, _, _, rfl⟩ | ⟨level, _, rfl⟩⟩
  · exact engineTurn_bounded hp h he
  · exact engineTurn_bounded hp (hrest rest) he
  · exact hostRead_bounded (hrest rest) a
  · exact hostWrite_bounded (hrest rest) a v
  · exact resetInput_bounded hp (hrest rest) level

end

/-- Settles O58: the invariant relative to the state's own parameters is kept by every command, host access and move of the
reset input. -/
theorem stepKeepsTheDataInBounds : Obligations.StepKeepsTheDataInBounds := by
  unfold Obligations.StepKeepsTheDataInBounds
  intro s t hs hstep
  obtain ⟨hp, hb⟩ := (dataInv_iff s).1 hs
  have ht := step_bounded hp hb hstep
  exact ⟨(dataInv_iff t).2 (by rw [ht.params]; exact ⟨hp, ht⟩), ht.params⟩

end Sys2Proof.Machine
end

section
/-! SUPPORT. DECODE against the pure `decode` (R145, R146): each stage body, run on a state whose buffers and counts hold
its input, does what the pure function does from that input on. -/

namespace Sys2Proof.Machine

/-! ## Reading back what a stage has written -/

theorem histEntries_eq (s : State) :
    s.histEntries = Buf.readFrom s.unwrittenHist s.mem.hist 0 s.regs.histCount.toNat := by
  simp [State.histEntries, readFrom_eq, State.hist]

theorem blockEntries_eq (s : State) :
    s.blockEntries = Buf.readFrom s.unwrittenBlk s.mem.blk 0 s.regs.blockCount.toNat := by
  simp [State.blockEntries, readFrom_eq, State.blk]

/-- A payload within the byte stream is the stream's slice (R43). -/
theorem payload_eq_slice {s : State} {n a m : Nat} (h : a + m ≤ n) : s.payload a m = slice (s.bytes n) a m := by
  apply List.ext_getElem
  · simp [State.payload, slice]; omega
  · intro i _ _
    simp [State.payload, slice, bytes_eq]

@[simp] theorem ofCode_code (b : Baud) : Baud.ofCode b.code = some b := by cases b <;> rfl

/-! ## The header registers -/

/-- The header of an assembled image is parsed from the 16 bytes at its fixed offset, all of them present (R130, R136). -/
theorem hdr_of_assemble {y : List Byte} {hdr : Header} {blocks : List BlockEntry}
    (h : assemble y = .image hdr blocks) :
    118 ≤ y.length ∧ hdr = parseHeader (slice y headerOffset headerSize) (byteAt y (headerOffset + headerSize)) := by
  unfold assemble at h
  split at h
  · cases h
  · simp only [headerOffset, headerSize] at *
    split at h
    · cases h
    · injection h with h1 h2
      exact ⟨by omega, h1.symm⟩

theorem hdr_name_length {y : List Byte} {hdr : Header} {blocks : List BlockEntry}
    (h : assemble y = .image hdr blocks) : hdr.name.length = 5 := by
  obtain ⟨hy, rfl⟩ := hdr_of_assemble h
  simp only [parseHeader, slice, List.length_take, List.length_drop, headerOffset, headerSize]
  omega

theorem extract_append_low {v w : Nat} (x : BitVec v) (y : BitVec w) : (x ++ y).extractLsb' 0 w = y := by
  rw [BitVec.extractLsb'_append_eq_of_add_le (Nat.zero_add w).le, BitVec.extractLsb'_eq_self]

theorem extract_append_high {v w : Nat} (x : BitVec v) (y : BitVec w) (k n : Nat) :
    (x ++ y).extractLsb' (w + k) n = x.extractLsb' k n := by
  rw [BitVec.extractLsb'_append_eq_of_le (Nat.le_add_right w k), Nat.add_sub_cancel_left]

/-- Four bytes packed into a word, the first one lowest, are read back byte by byte (R69). -/
theorem extract_packed (a b c d : Byte) :
    (d ++ c ++ b ++ a : Word).extractLsb' 0 8 = a ∧ (d ++ c ++ b ++ a : Word).extractLsb' 8 8 = b ∧
      (d ++ c ++ b ++ a : Word).extractLsb' 16 8 = c ∧ (d ++ c ++ b ++ a : Word).extractLsb' 24 8 = d := by
  refine ⟨extract_append_low _ a, ?_, ?_, ?_⟩
  · exact (extract_append_high _ a 0 8).trans (extract_append_low _ b)
  · exact (extract_append_high _ a 8 8).trans ((extract_append_high _ b 0 8).trans (extract_append_low _ c))
  · exact (extract_append_high _ a 16 8).trans ((extract_append_high _ b 8 8).trans
      ((extract_append_high d c 0 8).trans BitVec.extractLsb'_eq_self))

/-- The header registers hold the header they were set to (R41, R69). -/
theorem setImage_header (s : State) {hdr : Header} (hn : hdr.name.length = 5) (blocks : List BlockEntry) :
    (s.setImage hdr blocks).regs.header = hdr := by
  have hname : (s.setImage hdr blocks).regs.name = hdr.name := by
    obtain ⟨a, b, c, d, e, hl⟩ : ∃ a b c d e, [a, b, c, d, e] = hdr.name := by
      simpa [List.length_eq_succ_iff] using hn
    obtain ⟨h0, h1, h2, h3⟩ := extract_packed a b c d
    simp [Regs.name, ← hl, byteAt, h0, h1, h2, h3]
  simp [Regs.header, hname]

/-- With IMAGE_VALID the ProgramImage is made of the header record, the block records and their payloads (R43). -/
theorem programImage_of_valid {s : State} (h : s.regs.status.imageValid = true) :
    s.programImage = some
      { name := s.regs.header.name, fileType := s.regs.header.fileType, length := s.regs.header.length
        load := s.regs.header.load, go := s.regs.header.go
        blocks := s.blockEntries.map (fun b => (s.payload b.offset b.length, b.ok)) } := by
  simp [State.programImage, h, Regs.header, State.blockEntries, Function.comp_def]

/-- Without IMAGE_VALID there is no ProgramImage (R43). -/
theorem programImage_of_not_valid {s : State} (h : s.regs.status.imageValid = false) : s.programImage = none := by
  simp [State.programImage, h]

/-! ## A decoding under way, and what its end must hold -/

/-- A command in progress: no error reported, no image, and the histogram valid exactly when one was built (R139, R160). -/
structure State.Decoding (s : State) (h : Option (List HistEntry)) : Prop where
  noError : s.regs.status.err = false
  noImage : s.regs.status.imageValid = false
  histValid : s.regs.status.histValid = h.isSome
  hist : ∀ hs, h = some hs → s.histEntries = hs

/-- A change that leaves STATUS and the histogram alone leaves the decoding where it is. -/
theorem State.Decoding.congr {s t : State} {h : Option (List HistEntry)} (hs : s.Decoding h)
    (hstatus : t.regs.status = s.regs.status) (hcount : t.regs.histCount = s.regs.histCount)
    (hhist : t.mem.hist = s.mem.hist) (hepoch : t.epoch = s.epoch) : t.Decoding h where
  noError := hstatus ▸ hs.noError
  noImage := hstatus ▸ hs.noImage
  histValid := hstatus ▸ hs.histValid
  hist := by
    have hu : t.unwrittenHist = s.unwrittenHist := by
      funext k; simp [State.unwrittenHist, State.unwritten, hepoch]
    have he : t.histEntries = s.histEntries := by rw [histEntries_eq, histEntries_eq, hhist, hcount, hu]
    rw [he]; exact hs.hist

/-- What the state holds when `decode` gives an image (R43, R136, R145). -/
structure State.HoldsImage (t : State) (hdr : Header) (blocks : List BlockEntry) (y : List Byte) (h : List HistEntry) :
    Prop where
  noError : t.regs.status.err = false
  header : t.regs.header = hdr
  entries : t.blockEntries = blocks
  stream : (List.range t.regs.byteCount.toNat).map t.byte = y
  image : t.programImage = some (imageOf y hdr blocks)
  histValid : t.regs.status.histValid = true
  hist : t.histEntries = h

/-- A command's stage ends as the pure function answers: done, holding the image, or raised with the error. -/
def Stage.Refines (x : Stage) (r : DecodeResult) : Prop :=
  match r with
  | .image hdr blocks y h => ∃ t, x = .done t ∧ t.HoldsImage hdr blocks y h
  | .error e h => ∃ t, x = .raised t e ∧ t.Decoding h

/-! ## The stages, the last one first -/

/-- Frames to bytes to an image: what is left of DECODE after BITDEC. -/
def fromFrame (s : State) : Stage := (frameBody s).andThen assembleBody

/-- What is left of DECODE after CLASSIFY. -/
def fromBitdec (s : State) : Stage := (bitdecBody s).andThen fromFrame

/-- What is left of DECODE after EXTRACT. -/
def fromClassify (s : State) : Stage := (classifyBody s).andThen fromBitdec

theorem andThen_assoc (x : Stage) (f g : State → Stage) :
    (x.andThen f).andThen g = x.andThen (fun s => (f s).andThen g) := by cases x <;> rfl

theorem pipeline_eq (s : State) : pipeline s = (extractBody s).andThen fromClassify := by
  simp only [pipeline, andThen_assoc]; rfl

section
variable {s : State}

/-- The records written and the registers set hold the image assembled from the byte stream (R43, R136, R138). -/
theorem setImage_holdsImage {hdr : Header} {blocks : List BlockEntry} {h : List HistEntry} (hs : s.Decoding (some h))
    (ha : assemble (s.bytes s.regs.byteCount.toNat) = .image hdr blocks) :
    ((s.writeBlocks blocks).setImage hdr blocks).HoldsImage hdr blocks (s.bytes s.regs.byteCount.toNat) h := by
  have hblocks : (assemble (s.bytes s.regs.byteCount.toNat)).blocks = blocks := by rw [ha]; rfl
  have hlen : blocks.length ≤ 256 := hblocks ▸ assemble_blocks_length_le _
  have hheader := setImage_header (s.writeBlocks blocks) (hdr_name_length ha) blocks
  have hentries : ((s.writeBlocks blocks).setImage hdr blocks).blockEntries = blocks := by
    have hcount : (BitVec.ofNat 9 blocks.length).toNat = blocks.length := by
      simp only [BitVec.toNat_ofNat]; omega
    simp only [blockEntries_eq, setImage_blockCount, hcount, setImage_mem, writeBlocks_blk, readFrom_writePrefix]
  have hpayload : ∀ b ∈ blocks, ((s.writeBlocks blocks).setImage hdr blocks).payload b.offset b.length =
      slice (s.bytes s.regs.byteCount.toNat) b.offset b.length := fun b hb => by
    obtain ⟨-, -, -, hb⟩ := mem_assemble_blocks (hblocks ▸ hb)
    rw [bytes_length] at hb
    exact payload_eq_slice (s := s) hb.le
  refine ⟨hs.noError, hheader, hentries, (bytes_eq _ _).symm, ?_, hs.histValid, hs.hist h rfl⟩
  rw [programImage_of_valid rfl, hheader, hentries]
  simp only [imageOf, Option.some.injEq, ProgramImage.mk.injEq, true_and]
  exact List.map_congr_left fun b hb => by rw [hpayload b hb]

/-- ASSEMBLE answers what `decode` does from the byte stream on (R136, R138). -/
theorem assembleBody_refines {h : List HistEntry} {bits : List Bool} (hs : s.Decoding (some h))
    (hy : s.bytes s.regs.byteCount.toNat = frame bits) (hfit : (frame bits).length ≤ s.params.maxSamples) :
    (assembleBody s).Refines (decodeStream h bits) := by
  have hn : s.regs.byteCount.toNat = (frame bits).length := by rw [← hy, bytes_length]
  rcases assembleBody_cases s with ⟨hgt, _⟩ | ⟨_, ⟨k, blocks, ha, e⟩ | ⟨hdr, blocks, ha, e⟩⟩
  · omega
  · rw [hy] at ha
    simp only [decodeStream, ha, e]
    exact ⟨_, rfl, hs.noError, rfl, hs.histValid, hs.hist⟩
  · have himg := setImage_holdsImage hs ha
    rw [hy] at ha himg
    simp only [decodeStream, ha, e]
    exact ⟨_, rfl, himg⟩

/-- FRAME and ASSEMBLE answer what `decode` does from the bitstream on (R123, R125). -/
theorem fromFrame_refines {h : List HistEntry} {bits : List Bool} (hs : s.Decoding (some h))
    (hbits : s.bits s.regs.bitCount.toNat = bits) (hfit : bits.length ≤ s.params.maxSamples) :
    (fromFrame s).Refines (decodeStream h bits) := by
  have hn : s.regs.bitCount.toNat = bits.length := by rw [← hbits, bits_length]
  have hle : (frame bits).length ≤ bits.length := by rw [frame_length]; omega
  have hword : (natWord (frame bits).length).toNat = (frame bits).length :=
    natWord_toNat (by have := s.regs.bitCount.isLt; omega)
  unfold fromFrame
  rcases frameBody_cases s with ⟨hgt, _⟩ | ⟨_, y, hy, e⟩
  · omega
  · rw [hbits] at hy
    subst hy
    rw [e, andThen_done]
    refine assembleBody_refines (hs.congr rfl rfl rfl rfl) ?_ (hle.trans hfit)
    simp only [State.bytes, setByteCount_byteCount, setByteCount_mem, setMem_mem, hword, readFrom_writePrefix]

/-- BITDEC and the stages after it answer what `decode` does from the tone symbols on (R112, R118). -/
theorem fromBitdec_refines {h : List HistEntry} {b : Baud} {tones : List Tone} (hs : s.Decoding (some h))
    (hbaud : s.regs.baud = b.code) (htones : s.syms s.regs.symCount.toNat = tones)
    (hfit : tones.length ≤ s.params.maxSamples) : (fromBitdec s).Refines (decodeTones h b tones) := by
  have hn : s.regs.symCount.toNat = tones.length := by rw [← htones, syms_length]
  have hbody : bitdecBody s = decodeStage b tones s := by
    rcases bitdecBody_cases s with ⟨hc, _⟩ | ⟨b', hc, ⟨hgt, _⟩ | ⟨_, e⟩⟩ <;> rw [hbaud, ofCode_code] at hc <;> cases hc
    · omega
    · rw [e, htones]
  have hle := bitDecode_length_le b tones
  unfold fromBitdec
  rw [hbody]
  rcases decodeStage_cases b tones s with ⟨bits, hd, e⟩ | ⟨bits, p, ctx, hd, e⟩ <;>
    simp only [decodeTones, hd, e, andThen_done, andThen_raised]
  · simp only [hd] at hle
    have hword : (natWord bits.length).toNat = bits.length :=
      natWord_toNat (by have := s.regs.symCount.isLt; omega)
    refine fromFrame_refines (hs.congr rfl rfl rfl rfl) ?_ (hle.trans hfit)
    simp only [State.bits, setDecoded_bitCount, setDecoded_mem, setMem_mem, hword, readFrom_writePrefix]
  · exact ⟨_, rfl, hs.congr rfl rfl rfl rfl⟩

/-- The histogram is held as it was built (R102, R107). -/
theorem setHistogram_decoding {h : Option (List HistEntry)} (hs : s.Decoding h) (n : Nat) {hist : List HistEntry}
    (hlen : hist.length < 2 ^ 32) : (s.setHistogram n hist).Decoding (some hist) where
  noError := hs.noError
  noImage := hs.noImage
  histValid := rfl
  hist := fun _ e => by
    injection e with e
    subst e
    simp only [histEntries_eq, setHistogram_histCount, setHistogram_hist, natWord_toNat hlen, readFrom_writePrefix]

/-- The symbols mapped at the inferred baud rate, and the stages after them, answer what `decode` does from the estimates
on (R105, R106). -/
theorem mapStage_refines {b : Baud} {es : List Freq} (hb : inferBaud (histogram es) = .baud b)
    (hs : s.Decoding (some (histogram es))) (hbaud : s.regs.baud = b.code) (hfit : es.length ≤ s.params.maxSamples)
    (hlen : es.length < 2 ^ 32) : ((mapStage b es s).andThen fromBitdec).Refines (decodeEstimates es) := by
  rcases mapStage_cases b es s with ⟨syms, hm, e⟩ | ⟨syms, j, f, hm, e⟩ <;>
    simp only [decodeEstimates, hb, hm, e, andThen_done, andThen_raised]
  · have hsyms : es.length = syms.length := by
      rcases mapSymbols_cases b 0 es with ⟨syms', h1, h2⟩ | ⟨_, _, _, h1, _⟩ <;> rw [hm] at h1 <;> cases h1
      simpa using congrArg List.length h2
    have hword : (natWord es.length).toNat = syms.length := (natWord_toNat hlen).trans hsyms
    refine fromBitdec_refines (hs.congr rfl rfl rfl rfl) hbaud ?_ (hsyms ▸ hfit)
    simp only [State.syms, setSymCount_symCount, setSymCount_mem, setMem_mem, hword, readFrom_writePrefix]
  · exact ⟨_, rfl, hs.congr rfl rfl rfl rfl⟩

/-- CLASSIFY from the estimates on, and the stages after it (R104, R107). -/
theorem classifyEstimates_refines {es : List Freq} (hs : s.Decoding none) (hfit : es.length ≤ s.params.maxSamples)
    (hlen : es.length < 2 ^ 32) : ((classifyEstimates es s).andThen fromBitdec).Refines (decodeEstimates es) := by
  have hhist := setHistogram_decoding hs es.length ((histogram_length_le es).trans_lt hlen)
  rcases classifyEstimates_cases es s with ⟨r, hr, e⟩ | ⟨b, hb, e⟩ <;> rw [e]
  · rcases hr with ⟨hr, rfl⟩ | ⟨hr, rfl⟩ <;> simp only [decodeEstimates, hr, andThen_raised] <;>
      exact ⟨_, rfl, hhist.congr rfl rfl rfl rfl⟩
  · exact mapStage_refines hb (hhist.congr rfl rfl rfl rfl) rfl hfit hlen

/-- CLASSIFY and the stages after it answer what `decode` does from the crossings on (R98, R107). -/
theorem fromClassify_refines {fmt : Format} {samples : List Int} {threshold : Nat} (hs : s.Decoding none)
    (hfmt : fmt.acceptable = true) (hrate : s.regs.sampleRate ≠ 0)
    (hxing : s.xings s.regs.xingCount.toNat = crossings (trim samples threshold).2)
    (hfit : s.regs.xingCount.toNat ≤ s.params.maxSamples) :
    (fromClassify s).Refines (decodeSamples fmt samples s.regs.sampleRate.toNat threshold) := by
  unfold fromClassify
  rcases classifyBody_cases s with ⟨hzero, _⟩ | ⟨_, ⟨j, he, e⟩ | ⟨es, he, e⟩⟩
  · exact absurd hzero hrate
  · rw [hxing] at he
    simp only [decodeSamples, hfmt, he, e, andThen_raised]
    exact ⟨_, rfl, hs.noError, hs.noImage, rfl, fun _ h => nomatch h⟩
  · have hlen : es.length ≤ s.regs.xingCount.toNat := by
      obtain ⟨-, rfl⟩ := estimates_ok he
      simp only [estimateList_length, xings_length]
      omega
    rw [hxing] at he
    simp only [decodeSamples, hfmt, he, e]
    exact classifyEstimates_refines hs (hlen.trans hfit) (hlen.trans_lt s.regs.xingCount.isLt)

/-- The five stages answer what `decode` does with the core's inputs (R2, R145). -/
theorem pipeline_refines (hs : s.Decoding none) (hfmt : s.regs.format.acceptable = true)
    (hfit : s.regs.sampleCount.toNat ≤ s.params.maxSamples) (hrate : s.regs.sampleRate ≠ 0) :
    (pipeline s).Refines (decodeSamples s.regs.format (s.samples s.regs.sampleCount.toNat) s.regs.sampleRate.toNat
      s.regs.silenceThr.toNat) := by
  rw [pipeline_eq]
  rcases extractBody_cases s with ⟨hbad, _⟩ | ⟨_, hgt, _⟩ | ⟨_, _, kept, hk, e⟩
  · rw [hfmt] at hbad; cases hbad
  · omega
  · rw [e, andThen_done]
    have hlen : (crossings kept.2).length ≤ s.regs.sampleCount.toNat := by
      have h1 := crossings_length_le kept.2
      have h2 := trim_length_le (s.samples s.regs.sampleCount.toNat) s.regs.silenceThr.toNat
      rw [← hk, samples_length] at h2
      omega
    have hword : (natWord (crossings kept.2).length).toNat = (crossings kept.2).length :=
      natWord_toNat (hlen.trans_lt s.regs.sampleCount.isLt)
    refine fromClassify_refines (hs.congr rfl rfl rfl rfl) hfmt hrate ?_ ?_
    · rw [← hk]
      simp only [State.xings, setExtracted_xingCount, setExtracted_mem, setMem_mem, hword, readFrom_writePrefix]
    · simpa [hword] using hlen.trans hfit

/-- The body of DECODE answers what the pure function does (R145, R146). -/
theorem decodeBody_refines (herr : s.regs.status.err = false) (hhist : s.regs.status.histValid = false)
    (hfit : s.regs.sampleCount.toNat ≤ s.params.maxSamples) (hrate : s.regs.sampleRate ≠ 0) :
    (decodeBody s).Refines (decodeSamples s.regs.format (s.samples s.regs.sampleCount.toNat) s.regs.sampleRate.toNat
      s.regs.silenceThr.toNat) := by
  have hstart : s.clearOutputs.Decoding none := ⟨herr, rfl, hhist, fun _ h => nomatch h⟩
  rcases decodeBody_cases s with ⟨hbad, e⟩ | ⟨_, hgt, _⟩ | ⟨_, _, hzero, _⟩ | ⟨hfmt, _, _, e⟩
  · simp only [decodeSamples, hbad, e]
    exact ⟨_, rfl, hstart⟩
  · omega
  · exact absurd hzero hrate
  · rw [e]
    exact pipeline_refines hstart hfmt hfit hrate

/-- Completion keeps what the state holds of an image. -/
theorem State.HoldsImage.complete {hdr : Header} {blocks : List BlockEntry} {y : List Byte} {h : List HistEntry}
    (hs : s.HoldsImage hdr blocks y h) : (Stage.done s).complete.HoldsImage hdr blocks y h :=
  ⟨hs.noError, hs.header, hs.entries, hs.stream, hs.image, hs.histValid, hs.hist⟩

end

/-- Settles O51: DECODE's body ends as the pure function answers, and completion reports the error or none. -/
theorem decodeRefinesThePureDecoder : Obligations.DecodeRefinesThePureDecoder := by
  unfold Obligations.DecodeRefinesThePureDecoder
  intro s herr hhist hfit hrate
  refine ⟨(decodeBody s).complete, rfl, complete_pending _, complete_busy _, complete_done_flag _, ?_⟩
  have href := decodeBody_refines herr hhist hfit hrate
  rw [samples_eq] at href
  generalize decodeSamples _ _ _ _ = r at href ⊢
  cases r with
  | image hdr blocks y h =>
    obtain ⟨t, hx, ht⟩ := href
    rw [hx]
    obtain ⟨herr', hheader, hblocks, hstream, himage, hvalid, hentries⟩ := ht.complete
    exact ⟨herr', hheader, hblocks, hstream, himage, hvalid, hentries⟩
  | error e h =>
    obtain ⟨t, hx, ht⟩ := href
    rw [hx]
    exact ⟨rfl, rfl, rfl, rfl, rfl, rfl, programImage_of_not_valid ht.noImage, ht.histValid, ht.hist⟩

end Sys2Proof.Machine
end

section
/-! SUPPORT. What commands and steps keep: the rule for a property that every write of a stage keeps, the rule for one that
every move of the core and its host keeps, and the part of the state no stage touches (R54, R152). -/

namespace Sys2Proof.Machine

/-! ## Commands -/

/-- A stage ends, done or raised, in a state of which `P` holds. -/
abbrev Stage.Meets (x : Stage) (P : State → Prop) : Prop := Ends x P (fun t _ => P t)

/-- `P` is kept by each write a stage or DECODE makes, the writes taken in the groups in which no check comes between
them. -/
structure WritesKeep (P : State → Prop) : Prop where
  xing : ∀ s cs, P s → P (s.setMem { s.mem with xing := Buf.writePrefix s.mem.xing cs })
  extracted : ∀ s start len count, P s → P (s.setExtracted start len count)
  unclassified : ∀ s, P s → P s.clearClassified
  histogram : ∀ s es, es.length < 2 ^ 32 → P s → P (s.setHistogram es.length (histogram es))
  baud : ∀ s code, P s → P (s.setBaud code)
  sym : ∀ s tones, P s → P (s.setMem { s.mem with sym := Buf.writePrefix s.mem.sym tones })
  symCount : ∀ s n, P s → P (s.setSymCount n)
  bit : ∀ s bits, P s → P (s.setMem { s.mem with bit := Buf.writePrefix s.mem.bit bits })
  decoded : ∀ s preamble n, P s → P (s.setDecoded preamble n)
  byte : ∀ s y, P s → P (s.setMem { s.mem with byte := Buf.writePrefix s.mem.byte y })
  byteCount : ∀ s n, P s → P (s.setByteCount n)
  noImage : ∀ s, P s → P s.clearImage
  truncated : ∀ s blocks, P s → P (s.writeBlocks blocks).clearImage
  image : ∀ s y hdr blocks, assemble y = .image hdr blocks → P s → P ((s.writeBlocks blocks).setImage hdr blocks)
  clearOutputs : ∀ s, P s → P s.clearOutputs

/-- There are fewer estimates than a register can count. -/
theorem estimates_length_lt {s : State} {r : Nat} {es : List Freq}
    (h : estimates r (s.xings s.regs.xingCount.toNat) = .ok es) : es.length < 2 ^ 32 := by
  obtain ⟨-, rfl⟩ := estimates_ok h
  have := s.regs.xingCount.isLt
  simp only [estimateList_length, xings_length]
  omega

section
variable {P : State → Prop} {s t : State}

theorem WritesKeep.extractBody (h : WritesKeep P) (hs : P s) : (extractBody s).Meets P := by
  rcases extractBody_cases s with ⟨_, e⟩ | ⟨_, _, e⟩ | ⟨_, _, _, _, e⟩ <;> rw [e]
  · exact h.extracted _ _ _ _ hs
  · exact h.extracted _ _ _ _ hs
  · exact h.extracted _ _ _ _ (h.xing _ _ hs)

theorem WritesKeep.mapStage (h : WritesKeep P) (hs : P s) (b : Baud) (es : List Freq) : (mapStage b es s).Meets P := by
  rcases mapStage_cases b es s with ⟨_, _, e⟩ | ⟨_, _, _, _, e⟩ <;> rw [e] <;> exact h.symCount _ _ (h.sym _ _ hs)

theorem WritesKeep.classifyBody (h : WritesKeep P) (hs : P s) : (classifyBody s).Meets P := by
  rcases classifyBody_cases s with ⟨_, e⟩ | ⟨_, ⟨_, _, e⟩ | ⟨es, hes, e⟩⟩ <;> rw [e]
  · exact h.unclassified _ hs
  · exact h.unclassified _ hs
  · have hhist := h.histogram s es (estimates_length_lt hes) hs
    rcases classifyEstimates_cases es s with ⟨_, _, e⟩ | ⟨b, _, e⟩ <;> rw [e]
    · exact h.symCount _ _ (h.baud _ _ hhist)
    · exact h.mapStage (h.baud _ _ hhist) b es

theorem WritesKeep.bitdecBody (h : WritesKeep P) (hs : P s) : (bitdecBody s).Meets P := by
  rcases bitdecBody_cases s with ⟨_, e⟩ | ⟨b, _, ⟨_, e⟩ | ⟨_, e⟩⟩ <;> rw [e]
  · exact h.decoded _ _ _ hs
  · exact h.decoded _ _ _ hs
  · rcases decodeStage_cases b (s.syms s.regs.symCount.toNat) s with ⟨_, _, e⟩ | ⟨_, _, _, _, e⟩ <;> rw [e] <;>
      exact h.decoded _ _ _ (h.bit _ _ hs)

theorem WritesKeep.frameBody (h : WritesKeep P) (hs : P s) : (frameBody s).Meets P := by
  rcases frameBody_cases s with ⟨_, e⟩ | ⟨_, _, _, e⟩ <;> rw [e]
  · exact h.byteCount _ _ hs
  · exact h.byteCount _ _ (h.byte _ _ hs)

theorem WritesKeep.assembleBody (h : WritesKeep P) (hs : P s) : (assembleBody s).Meets P := by
  rcases assembleBody_cases s with ⟨_, e⟩ | ⟨_, ⟨_, blocks, _, e⟩ | ⟨_, _, ha, e⟩⟩ <;> rw [e]
  · exact h.noImage _ hs
  · exact h.truncated _ _ hs
  · exact h.image _ _ _ _ ha hs

theorem WritesKeep.decodeBody (h : WritesKeep P) (hs : P s) : (decodeBody s).Meets P := by
  have hclear := h.clearOutputs s hs
  rcases decodeBody_cases s with ⟨_, e⟩ | ⟨_, _, e⟩ | ⟨_, _, _, e⟩ | ⟨_, _, _, e⟩ <;> rw [e]
  · exact hclear
  · exact hclear
  · exact hclear
  · exact ends_andThen (ends_andThen (ends_andThen (ends_andThen (h.extractBody hclear) fun _ => h.classifyBody)
      fun _ => h.bitdecBody) fun _ => h.frameBody) fun _ => h.assembleBody

/-- Every command but RESET is the completion of a stage that keeps what their writes keep. -/
theorem WritesKeep.exec (h : WritesKeep P) (hs : P s) {i : Instr} (hi : i ≠ .reset) (he : exec i s = .next t) :
    ∃ x : Stage, t = x.complete ∧ x.Meets P := by
  have hx : ∃ x : Stage, Machine.exec i s = x.finish ∧ x.Meets P := by
    cases i with
    | nop => exact ⟨.done s, rfl, hs⟩
    | decode => exact ⟨_, rfl, h.decodeBody hs⟩
    | extract => exact ⟨_, rfl, h.extractBody hs⟩
    | classify => exact ⟨_, rfl, h.classifyBody hs⟩
    | bitdec => exact ⟨_, rfl, h.bitdecBody hs⟩
    | frame => exact ⟨_, rfl, h.frameBody hs⟩
    | assemble => exact ⟨_, rfl, h.assembleBody hs⟩
    | reset => exact absurd rfl hi
    | reserved7 | reserved8 | reserved9 | reservedA | reservedB | reservedC | reservedD | reservedE | illegal w =>
      exact ⟨illegalBody s, rfl, hs⟩
  obtain ⟨x, hex, hmeets⟩ := hx
  rw [hex, finish_eq] at he
  injection he with he
  exact ⟨x, he.symm, hmeets⟩

/-- A property that the stages' writes, RESET and completion keep is kept by every command. -/
theorem WritesKeep.exec_keeps (h : WritesKeep P) (hcomplete : ∀ x : Stage, x.Meets P → P x.complete)
    (hreset : ∀ s, P s → (resetBody s).Meets P) (hs : P s) {i : Instr} (he : Machine.exec i s = .next t) : P t := by
  by_cases hi : i = .reset
  · subst hi
    injection he with he
    exact he ▸ hcomplete _ (hreset s hs)
  · obtain ⟨x, rfl, hx⟩ := h.exec hs hi he
    exact hcomplete x hx

end

/-! ## Steps -/

/-- `P` is kept by everything that can happen at the core's boundary and by the engine (R23, R59, R140, R162). -/
structure StepKeeps (P : State → Prop) : Prop where
  /-- The inputs still to come, the replies and the count of free values do not matter. -/
  host : ∀ s inputs replies draws, P s → P { s with inputs := inputs, replies := replies, draws := draws }
  exec : ∀ s w t, P s → s.rst = false → s.pending = some w → exec (decodeCmd w) s = .next t → P t
  writeReg : ∀ s r v, P s → s.rst = false → P (writeReg r v s)
  writeElement : ∀ s w k v, P s → s.rst = false → P (writeElement w k v s)
  /-- A write that BUSY = 1 turns away (R166). -/
  werr : ∀ s, P s → s.rst = false → P (s.setStatus { s.regs.status with werr := true })
  reset : ∀ s, P s → P { s.hardwareReset with rst := true }
  release : ∀ s, P s → P { s with rst := false }

section
variable {P : State → Prop} {s t : State}

theorem StepKeeps.engineTurn (h : StepKeeps P) (hs : P s) (he : engineTurn s = .next t) : P t := by
  rcases engineTurn_cases s with ⟨w, hr, hp, e⟩ | ⟨_, e⟩ <;> rw [e] at he
  · exact h.exec s w t hs hr hp he
  · injection he with he
    exact he ▸ hs

theorem StepKeeps.hostWrite (h : StepKeeps P) (hs : P s) (a v : Word) : P (hostWrite a v s) := by
  rcases hostWrite_cases a v s with
    ⟨_, e⟩ | ⟨hr, _, e | e | e⟩ | ⟨hr, _, ⟨r, e⟩ | ⟨w, k, _, e⟩ | e⟩ <;> rw [e]
  · exact hs
  · exact h.writeReg s _ v hs hr
  · exact h.writeReg s _ v hs hr
  · exact h.werr s hs hr
  · exact h.writeReg s r v hs hr
  · exact h.writeElement s w k v hs hr
  · exact hs

/-- What every move keeps, every step keeps. -/
theorem StepKeeps.step (h : StepKeeps P) (hs : P s) (hstep : step s = .next t) : P t := by
  have hrest : ∀ rest, P { s with inputs := rest } := fun rest => h.host s rest s.replies s.draws hs
  rcases step_cases hstep with
    ⟨_, he⟩ | ⟨_, rest, _, ⟨_, he⟩ | ⟨a, _, _, rfl⟩ | ⟨a, v, _, _, rfl⟩ | ⟨level, _, rfl⟩⟩
  · exact h.engineTurn hs he
  · exact h.engineTurn (hrest rest) he
  · obtain ⟨v, e | e⟩ := hostRead_cases a { s with inputs := rest } <;> rw [e] <;> exact h.host s _ _ _ hs
  · exact h.hostWrite (hrest rest) a v
  · cases level with
    | false => exact h.release _ (hrest rest)
    | true => exact h.reset _ (hrest rest)

end

/-! ## What no stage touches -/

/-- What is as before whatever stages have run: everything outside the outputs of the core (R54). -/
structure State.Untouched (s t : State) : Prop where
  outside : s.SameOutside t
  irqEn : t.regs.irqEn = s.regs.irqEn
  sampleRate : t.regs.sampleRate = s.regs.sampleRate
  format : t.regs.format = s.regs.format
  sampleCount : t.regs.sampleCount = s.regs.sampleCount
  silenceThr : t.regs.silenceThr = s.regs.silenceThr
  samp : t.mem.samp = s.mem.samp
  err : t.regs.status.err = s.regs.status.err
  errCode : t.regs.status.errCode = s.regs.status.errCode
  werr : t.regs.status.werr = s.regs.status.werr
  lastCmd : t.regs.status.lastCmd = s.regs.status.lastCmd
  errIndex : t.regs.errIndex = s.regs.errIndex
  errFreq : t.regs.errFreq = s.regs.errFreq
  errCtx : t.regs.errCtx = s.regs.errCtx
  errCtxLen : t.regs.errCtxLen = s.regs.errCtxLen

theorem State.Untouched.refl (s : State) : s.Untouched s :=
  ⟨⟨rfl, rfl, rfl, rfl, rfl, rfl⟩, rfl, rfl, rfl, rfl, rfl, rfl, rfl, rfl, rfl, rfl, rfl, rfl, rfl, rfl⟩

theorem writesKeep_untouched (s : State) : WritesKeep s.Untouched where
  xing _ _ h := { h with }
  extracted _ _ _ _ h := { h with }
  unclassified _ h := { h with }
  histogram _ _ _ h := { h with }
  baud _ _ h := { h with }
  sym _ _ h := { h with }
  symCount _ _ h := { h with }
  bit _ _ h := { h with }
  decoded _ _ _ h := { h with }
  byte _ _ h := { h with }
  byteCount _ _ h := { h with }
  noImage _ h := { h with }
  truncated _ _ h := { h with }
  image _ _ _ _ _ h := { h with }
  clearOutputs _ h := { h with }

end Sys2Proof.Machine
end

section
/-! SUPPORT. What every command but RESET leaves as it was, and the invariants a step keeps: the canonical form of the
buffers (log 5), the command protocol (R139) and the validity flags (R29). -/

namespace Sys2Proof.Machine

/-! ## What every command but RESET leaves as it was -/

/-- From `s`, a command has completed in `t`, and everything no command but RESET writes is as before (R54, R141). -/
structure State.CommandFrame (s t : State) : Prop where
  outside : s.SameOutside t
  status : s.regs.status.CompletedFrom t.regs.status
  irqEn : t.regs.irqEn = s.regs.irqEn
  sampleRate : t.regs.sampleRate = s.regs.sampleRate
  format : t.regs.format = s.regs.format
  sampleCount : t.regs.sampleCount = s.regs.sampleCount
  silenceThr : t.regs.silenceThr = s.regs.silenceThr
  samp : t.mem.samp = s.mem.samp

theorem complete_commandFrame {s : State} {x : Stage} (h : x.Meets s.Untouched) : s.CommandFrame x.complete := by
  cases x with
  | done u => have hu : s.Untouched u := h; exact { hu with status := ⟨rfl, rfl, hu.werr, hu.lastCmd⟩ }
  | raised u e => have hu : s.Untouched u := h; exact { hu with status := ⟨rfl, rfl, hu.werr, hu.lastCmd⟩ }

theorem exec_commandFrame {i : Instr} (hi : i ≠ .reset) {s t : State} (he : exec i s = .next t) : s.CommandFrame t := by
  obtain ⟨x, rfl, hx⟩ := (writesKeep_untouched s).exec (.refl s) hi he
  exact complete_commandFrame hx

/-- Settles O16: completion raises DONE, acceptance and a written 1 clear it, and only RESET writes IRQ_EN. -/
theorem irqFollowsCompletion : Obligations.IrqFollowsCompletion := by
  refine ⟨fun i s t he => ?_, fun s v => by simp [State.irq, Status.accepted], fun s v hr hv => ?_⟩
  · have hdone : t.regs.status.done = true := by
      obtain ⟨x, hx⟩ := exec_eq_complete i s
      rw [hx] at he
      injection he with he
      rw [← he, complete_done_flag]
    refine ⟨by simp [State.irq, hdone], ?_⟩
    by_cases hi : i = .reset
    · subst hi
      injection he with he
      simp [← he, resetBody, complete_done, Regs.reset]
    · simp [hi, (exec_commandFrame hi he).irqEn]
  · have ht : targetOf s.params 0x00C#32 = .reg .status := targetOf_regAddr s.params .status
    have hw : hostWrite 0x00C#32 v s = writeReg .status v s := by simp [hostWrite, hr, ht, writeBusy, writeIdle]
    simp [hw, writeReg, State.irq, Status.w1c, hv]

/-! ## The canonical form of the buffers -/

theorem writesKeep_wf : WritesKeep (fun s => s.mem.wf) where
  xing _ cs := fun ⟨samp, xing, rest⟩ => ⟨samp, wf_writePrefix xing cs, rest⟩
  sym _ ts := fun ⟨samp, xing, sym, rest⟩ => ⟨samp, xing, wf_writePrefix sym ts, rest⟩
  bit _ bs := fun ⟨samp, xing, sym, bit, rest⟩ => ⟨samp, xing, sym, wf_writePrefix bit bs, rest⟩
  byte _ y := fun ⟨samp, xing, sym, bit, byte, rest⟩ => ⟨samp, xing, sym, bit, wf_writePrefix byte y, rest⟩
  histogram _ es _ := fun ⟨samp, xing, sym, bit, byte, hist, blk⟩ =>
    ⟨samp, xing, sym, bit, byte, wf_writePrefix hist (histogram es), blk⟩
  truncated _ bs := fun ⟨samp, xing, sym, bit, byte, hist, blk⟩ =>
    ⟨samp, xing, sym, bit, byte, hist, wf_writePrefix blk bs⟩
  image _ _ _ bs _ := fun ⟨samp, xing, sym, bit, byte, hist, blk⟩ =>
    ⟨samp, xing, sym, bit, byte, hist, wf_writePrefix blk bs⟩
  extracted _ _ _ _ h := h
  unclassified _ h := h
  baud _ _ h := h
  symCount _ _ h := h
  decoded _ _ _ h := h
  byteCount _ _ h := h
  noImage _ h := h
  clearOutputs _ h := h

@[simp] theorem writeReg_mem (r : Reg) (v : Word) (s : State) : (writeReg r v s).mem = s.mem := by cases r <;> rfl

theorem writeElement_wf {s : State} (h : s.mem.wf) (w : Window) (k : Nat) (v : Word) :
    (writeElement w k v s).mem.wf := by
  obtain ⟨samp, xing, sym, bit, byte, hist, blk⟩ := h
  cases w with
  | samp => exact ⟨wf_write samp k _, xing, sym, bit, byte, hist, blk⟩
  | sym => exact ⟨samp, xing, wf_write sym k _, bit, byte, hist, blk⟩
  | bit => exact ⟨samp, xing, sym, wf_write bit k _, byte, hist, blk⟩
  | byte => exact ⟨samp, xing, sym, bit, wf_write byte k _, hist, blk⟩
  | xing | hist | blk => exact ⟨samp, xing, sym, bit, byte, hist, blk⟩

theorem stepKeeps_wf : StepKeeps (fun s => s.mem.wf) where
  host _ _ _ _ h := h
  exec _ _ _ h _ _ he :=
    writesKeep_wf.exec_keeps (fun x hx => by cases x <;> exact hx) (fun _ hs => hs) h he
  writeReg s r v h _ := by rw [writeReg_mem]; exact h
  writeElement _ w k v h _ := writeElement_wf h w k v
  werr _ h _ := h
  reset _ _ := wf_empty
  release _ h := h

/-- Settles O56: a sequence or an element written keeps the indices of a buffer strictly rising, and nothing else
changes one but a reset, which empties it. -/
theorem stepKeepsBuffersCanonical : Obligations.StepKeepsBuffersCanonical :=
  fun _ _ hs hstep => stepKeeps_wf.step hs hstep

/-! ## The command protocol -/

/-- Every error has a code from 1 to 9 (R148). -/
theorem FatalError.code_bounds (e : FatalError) : e.code ≠ 0 ∧ e.code.toNat ≤ 9 := by
  cases e <;> simp only [FatalError.code] <;> decide

/-- No report of an error stands (R139). -/
structure State.NoReport (s : State) : Prop where
  err : s.regs.status.err = false
  errCode : s.regs.status.errCode = 0
  errIndex : s.regs.errIndex = 0
  errFreq : s.regs.errFreq = 0
  errCtx : s.regs.errCtx = 0
  errCtxLen : s.regs.errCtxLen = 0

/-- While a command is pending no report stands. -/
theorem State.ProtocolInv.noReport {s : State} (h : s.ProtocolInv) {w : Word} (hp : s.pending = some w) :
    s.NoReport := by
  obtain ⟨hbusy, hflags, herr, _, hregs⟩ := h
  have he : s.regs.status.err = false := (hflags (by simp [hbusy, hp])).2
  have hcode : s.regs.status.errCode = 0 := by simpa [he] using herr
  obtain ⟨h1, h2, h3, h4⟩ := hregs he
  exact ⟨he, hcode, h1, h2, h3, h4⟩

/-- A state with no report that is idle, or busy and not done, meets the protocol. -/
theorem State.NoReport.protocolInv {s : State} (h : s.NoReport) (hbusy : s.regs.status.busy = s.pending.isSome)
    (hdone : s.regs.status.busy = true → s.regs.status.done = false) : s.ProtocolInv :=
  ⟨hbusy, fun hb => ⟨hdone hb, h.err⟩, by simp [h.err, h.errCode], by simp [h.errCode],
    fun _ => ⟨h.errIndex, h.errFreq, h.errCtx, h.errCtxLen⟩⟩

/-- Completion reports the error raised, or leaves that there is none. -/
theorem complete_protocolInv {s : State} (hs : s.NoReport) {x : Stage} (hx : x.Meets s.Untouched) :
    x.complete.ProtocolInv := by
  cases x with
  | done u =>
    have hu : s.Untouched u := hx
    have hr : (Stage.done u).complete.NoReport :=
      ⟨hu.err.trans hs.err, hu.errCode.trans hs.errCode, hu.errIndex.trans hs.errIndex, hu.errFreq.trans hs.errFreq,
        hu.errCtx.trans hs.errCtx, hu.errCtxLen.trans hs.errCtxLen⟩
    exact hr.protocolInv rfl (by simp)
  | raised u e =>
    obtain ⟨hne, hle⟩ := e.code_bounds
    exact ⟨rfl, fun hb => by simp at hb, by simpa [complete_raised] using hne, hle,
      fun he => by simp [complete_raised] at he⟩

theorem exec_protocolInv {s t : State} (hs : s.NoReport) {i : Instr} (he : exec i s = .next t) : t.ProtocolInv := by
  by_cases hi : i = .reset
  · subst hi
    injection he with he
    subst he
    exact State.NoReport.protocolInv ⟨rfl, rfl, rfl, rfl, rfl, rfl⟩ rfl (by simp)
  · obtain ⟨x, rfl, hx⟩ := (writesKeep_untouched s).exec (.refl s) hi he
    exact complete_protocolInv hs hx

/-- A register write accepts a command, takes the W1C action, or writes a field the protocol does not speak of. -/
theorem writeReg_protocolInv {s : State} (h : s.ProtocolInv) (r : Reg) (v : Word) : (writeReg r v s).ProtocolInv := by
  cases r with
  | cmd => exact State.NoReport.protocolInv ⟨rfl, rfl, rfl, rfl, rfl, rfl⟩ rfl fun _ => rfl
  | status =>
    obtain ⟨hbusy, hflags, hrest⟩ := h
    exact ⟨hbusy, fun hb => ⟨by simp [writeReg, Status.w1c, (hflags hb).1], (hflags hb).2⟩, hrest⟩
  | _ => exact h

@[simp] theorem writeReg_rst (r : Reg) (v : Word) (s : State) : (writeReg r v s).rst = s.rst := by cases r <;> rfl

theorem writeElement_eq_setMem (w : Window) (k : Nat) (v : Word) (s : State) :
    ∃ m, writeElement w k v s = s.setMem m := by cases w <;> exact ⟨_, rfl⟩

/-- With `rst` low there is nothing to keep of the reset state. -/
theorem resetInv_of_low {s : State} (h : s.rst = false) : s.ResetInv := fun hr => by simp [h] at hr

theorem stepKeeps_protocol : StepKeeps (fun s => s.ProtocolInv ∧ s.ResetInv) where
  host _ _ _ _ h := h
  exec s w t h hr hp he := by
    have hrst : t.rst = false := by
      by_cases hi : decodeCmd w = .reset
      · rw [hi] at he
        injection he with he
        exact he ▸ hr
      · obtain ⟨-, ht, -⟩ := (exec_commandFrame hi he).outside
        exact ht.trans hr
    exact ⟨exec_protocolInv (h.1.noReport hp) he, resetInv_of_low hrst⟩
  writeReg s r v h hr := ⟨writeReg_protocolInv h.1 r v, resetInv_of_low (by simpa using hr)⟩
  writeElement s w k v h hr := by
    obtain ⟨m, e⟩ := writeElement_eq_setMem w k v s
    exact e ▸ ⟨h.1, resetInv_of_low hr⟩
  werr s h hr := ⟨h.1, resetInv_of_low hr⟩
  reset s _ := ⟨State.NoReport.protocolInv ⟨rfl, rfl, rfl, rfl, rfl, rfl⟩ rfl (fun hb => nomatch hb),
    fun _ => ⟨rfl, rfl, rfl⟩⟩
  release s h := ⟨h.1, resetInv_of_low rfl⟩

/-- Settles O57: acceptance clears the last report, completion enters the next one, and a core whose `rst` is asserted
takes no write and performs no command. -/
theorem stepKeepsTheCommandProtocol : Obligations.StepKeepsTheCommandProtocol :=
  fun _ _ hp hr hstep => stepKeeps_protocol.step ⟨hp, hr⟩ hstep

end Sys2Proof.Machine
end

section
/-! SUPPORT. What HIST_VALID and IMAGE_VALID say stays true (R29, R42, R102, R134): the histogram CLASSIFY builds, the
blocks ASSEMBLE makes, and that nothing else touches either while its flag stands. -/

namespace Sys2Proof.Machine

/-! ## The histogram -/

/-- No bucket has two entries (R102). -/
theorem histogram_buckets_nodup (es : List Freq) : ((histogram es).map (fun e => e.bucket)).Nodup := by
  induction es using List.reverseRecOn with
  | nil => simp [histogram]
  | append_singleton es f ih =>
    rw [histogram_append, countBucket_buckets]
    split
    · exact ih
    · exact List.nodup_append_comm.1 (List.nodup_cons.2 ⟨‹_›, ih⟩)

/-- Every estimate is counted once (R102). -/
theorem histogram_counts_sum (es : List Freq) : ((histogram es).map (fun e => e.count)).sum = es.length := by
  induction es using List.reverseRecOn with
  | nil => simp [histogram]
  | append_singleton es f ih => rw [histogram_append, countBucket_sum, ih, List.length_append, List.length_singleton]

/-- HIST[0 .. HIST_COUNT) is the histogram just entered (R107). -/
theorem setHistogram_histEntries (s : State) (n : Nat) {h : List HistEntry} (hlen : h.length < 2 ^ 32) :
    (s.setHistogram n h).histEntries = h := by
  simp only [histEntries_eq, setHistogram_histCount, setHistogram_hist, natWord_toNat hlen, readFrom_writePrefix]

theorem setHistogram_histInv (s : State) {es : List Freq} (hes : es.length < 2 ^ 32) :
    (s.setHistogram es.length (histogram es)).HistInv := fun _ => by
  rw [setHistogram_histEntries s _ ((histogram_length_le es).trans_lt hes), setHistogram_estTotal, natWord_toNat hes]
  exact ⟨histogram_buckets_nodup es, histogram_counts_sum es⟩

theorem writesKeep_histInv : WritesKeep State.HistInv where
  unclassified _ _ := fun hv => nomatch hv
  histogram s _ hes _ := setHistogram_histInv s hes
  clearOutputs _ _ := fun _ => ⟨List.nodup_nil, rfl⟩
  xing _ _ h := h
  extracted _ _ _ _ h := h
  baud _ _ h := h
  sym _ _ h := h
  symCount _ _ h := h
  bit _ _ h := h
  decoded _ _ _ h := h
  byte _ _ h := h
  byteCount _ _ h := h
  noImage _ h := h
  truncated _ _ h := h
  image _ _ _ _ _ h := h

theorem stepKeeps_histInv : StepKeeps State.HistInv where
  host _ _ _ _ h := h
  exec _ _ _ h _ _ he :=
    writesKeep_histInv.exec_keeps (fun x hx => by cases x <;> exact hx) (fun _ _ => fun hv => nomatch hv) h he
  writeReg s r v h _ := by
    cases r with
    | cmd => exact fun hv => h (Bool.and_eq_true_iff.1 hv).1
    | _ => exact h
  writeElement _ w _ _ h _ := by cases w <;> exact h
  werr _ h _ := h
  reset _ _ := fun hv => nomatch hv
  release _ h := h

/-! ## The blocks -/

theorem blocksFor_of_pos {n : Nat} (h : n ≠ 0) : blocksFor n = blocksFor (n - min 256 n) + 1 := by
  unfold blocksFor; omega

theorem blockLen_succ (n k : Nat) : blockLen n (k + 1) = blockLen (n - min 256 n) k := by
  unfold blockLen; omega

/-- A block loop that misses no byte makes the record of every block of the bytes to go (R133, R134, R136). -/
theorem assembleBlocks_complete {y : List Byte} {fuel remaining off k : Nat} (hfuel : remaining ≤ fuel)
    (h : (assembleBlocks y fuel remaining off k).2 = none) :
    (assembleBlocks y fuel remaining off k).1 =
      (List.range (blocksFor remaining)).map (fun j => blockRecord y (off + 257 * j) (blockLen remaining j)) := by
  induction fuel generalizing remaining off k with
  | zero =>
    obtain rfl : remaining = 0 := by omega
    rfl
  | succ fuel ih =>
    rw [assembleBlocks] at h ⊢
    split at h
    · rename_i h0
      subst h0
      rfl
    · rename_i h0
      simp only [h0, if_false] at h ⊢
      split at h
      · cases h
      · rename_i hfit
        have hrest := ih (by simp only [blockMax]; omega) h
        rw [if_neg hfit]
        simp only
        rw [hrest, blocksFor_of_pos h0, List.range_succ_eq_map, List.map_cons, List.map_map]
        simp only [blockMax, blockStride, List.cons.injEq]
        refine ⟨by simp [blockLen], List.map_congr_left fun j _ => ?_⟩
        simp only [Function.comp, blockLen_succ]
        congr 1
        omega

/-- The records of an image are those of the blocks of its declared length, from index 219 on (R134, R136). -/
theorem assemble_image_blocks {y : List Byte} {hdr : Header} {blocks : List BlockEntry}
    (h : assemble y = .image hdr blocks) :
    blocks = (List.range (blocksFor hdr.length.toNat)).map
      (fun k => blockRecord y (219 + 257 * k) (blockLen hdr.length.toNat k)) := by
  unfold assemble at h
  split at h
  · cases h
  · simp only at h
    split at h
    · cases h
    · injection h with h1 h2
      subst h1 h2
      exact assembleBlocks_complete le_rfl ‹_›

/-- BLK[0 .. BLOCK_COUNT) are the records of the image just entered (R138). -/
theorem setImage_blockEntries (s : State) (hdr : Header) {blocks : List BlockEntry} (hlen : blocks.length ≤ 256) :
    ((s.writeBlocks blocks).setImage hdr blocks).blockEntries = blocks := by
  have hcount : (BitVec.ofNat 9 blocks.length).toNat = blocks.length := by
    simp only [BitVec.toNat_ofNat]; omega
  simp only [blockEntries_eq, setImage_blockCount, hcount, setImage_mem, writeBlocks_blk, readFrom_writePrefix]

@[simp] theorem blockEntries_length (s : State) : s.blockEntries.length = s.regs.blockCount.toNat := by
  simp [State.blockEntries]

/-- The invariant from the records as a list. -/
theorem imageInv_of_blockEntries {s : State} {y : List Byte}
    (hentries : s.blockEntries = (List.range (blocksFor s.regs.hdrLength.toNat)).map
      (fun k => blockRecord y (219 + 257 * k) (blockLen s.regs.hdrLength.toNat k)))
    (hfail : s.regs.blockFailCount.toNat = failCount s.blockEntries)
    (hok : s.regs.hdrCksum.ok = (s.regs.hdrCksum.computed == s.regs.hdrCksum.stored)) : s.ImageInv := fun _ => by
  have hcount : s.regs.blockCount.toNat = blocksFor s.regs.hdrLength.toNat := by
    simpa using congrArg List.length hentries
  refine ⟨hcount, fun k hk => ?_, ?_, hok⟩
  · rw [State.blockEntries, hcount] at hentries
    have hblk := List.map_inj_left.1 hentries k (List.mem_range.2 (hcount ▸ hk))
    rw [hblk]
    exact ⟨rfl, rfl, rfl⟩
  · rw [hfail, failCount, State.blockEntries, List.countP_map]
    rfl

theorem setImage_imageInv (s : State) {y : List Byte} {hdr : Header} {blocks : List BlockEntry}
    (h : assemble y = .image hdr blocks) : ((s.writeBlocks blocks).setImage hdr blocks).ImageInv := by
  have hlen : blocks.length ≤ 256 := by simpa [h, Assembled.blocks] using assemble_blocks_length_le y
  have hfail : failCount blocks ≤ blocks.length := List.countP_le_length
  apply imageInv_of_blockEntries (y := y)
  · rw [setImage_blockEntries s hdr hlen]
    exact assemble_image_blocks h
  · rw [setImage_blockEntries s hdr hlen]
    simp only [setImage_blockFailCount, BitVec.toNat_ofNat]
    omega
  · obtain ⟨-, rfl⟩ := hdr_of_assemble h
    rfl

theorem writesKeep_imageInv : WritesKeep State.ImageInv where
  noImage _ _ := fun hv => nomatch hv
  truncated _ _ _ := fun hv => nomatch hv
  image s _ _ _ ha _ := setImage_imageInv s ha
  clearOutputs _ _ := fun hv => nomatch hv
  xing _ _ h := h
  extracted _ _ _ _ h := h
  unclassified _ h := h
  histogram _ _ _ h := h
  baud _ _ h := h
  sym _ _ h := h
  symCount _ _ h := h
  bit _ _ h := h
  decoded _ _ _ h := h
  byte _ _ h := h
  byteCount _ _ h := h

theorem stepKeeps_imageInv : StepKeeps State.ImageInv where
  host _ _ _ _ h := h
  exec _ _ _ h _ _ he :=
    writesKeep_imageInv.exec_keeps (fun x hx => by cases x <;> exact hx) (fun _ _ => fun hv => nomatch hv) h he
  writeReg s r v h _ := by
    cases r with
    | cmd => exact fun hv => h (Bool.and_eq_true_iff.1 hv).1
    | _ => exact h
  writeElement _ w _ _ h _ := by cases w <;> exact h
  werr _ h _ := h
  reset _ _ := fun hv => nomatch hv
  release _ h := h

/-- Settles O59: CLASSIFY and ASSEMBLE set their flag beside the histogram and the blocks they make, and every other
write to these clears the flag or what it speaks of. -/
theorem stepKeepsTheValidityFlagsTrue : Obligations.StepKeepsTheValidityFlagsTrue :=
  ⟨fun _ _ hs hstep => stepKeeps_histInv.step hs hstep, fun _ _ hs hstep => stepKeeps_imageInv.step hs hstep⟩

end Sys2Proof.Machine
end

section
/-! SUPPORT. The frames of the commands (R54, R152): where each stage's writes to its buffer end, and that nothing else
writes it. -/

namespace Sys2Proof.Machine

/-! ## Where the writes end -/

/-- From element `n` on, what the elements read as is the same before (`f`) and after (`g`). -/
def KeptFrom {α : Type} (n : Nat) (f g : Nat → α) : Prop := ∀ k, n ≤ k → g k = f k

theorem keptFrom_refl {α : Type} (n : Nat) (f : Nat → α) : KeptFrom n f f := fun _ _ => rfl

/-- Past its end a sequence written changes no element. -/
theorem getD_read?_writePrefix {α : Type} {b : Buf α} {vs : List α} {k : Nat} (h : vs.length ≤ k) (d : α) :
    (Buf.read? (Buf.writePrefix b vs) k).getD d = (Buf.read? b k).getD d := by
  rw [read?_writePrefix, dif_neg (by omega)]

/-- Where the symbols written end: at SYM_COUNT or, after UNIDENTIFIED_TONE, at the index reported (R106). -/
def symEnd (t : State) (e : Option FatalError) : Nat :=
  match e with
  | some (.unidentifiedTone j _) => (natWord j).toNat
  | _ => t.regs.symCount.toNat

/-- Where the bits written end at the latest: at BIT_COUNT or, after INVALID_SEQUENCE, at SYM_COUNT (R118). -/
def bitEnd (t : State) (e : Option FatalError) : Nat :=
  match e with
  | some (.invalidSequence _ _) => t.regs.symCount.toNat
  | _ => t.regs.bitCount.toNat

/-- Where the block records written end: at BLOCK_COUNT or, after TRUNCATED, at the block whose bytes are missing
(R138). -/
def blkEnd (t : State) (e : Option FatalError) : Nat :=
  match e with
  | some (.truncated k) => (natWord k).toNat - 1
  | _ => t.regs.blockCount.toNat

@[simp] theorem symEnd_none (t : State) : symEnd t none = t.regs.symCount.toNat := rfl
@[simp] theorem symEnd_unidentifiedTone (t : State) (j : Nat) (f : Freq) :
    symEnd t (some (.unidentifiedTone j f)) = (natWord j).toNat := rfl
@[simp] theorem bitEnd_none (t : State) : bitEnd t none = t.regs.bitCount.toNat := rfl
@[simp] theorem blkEnd_none (t : State) : blkEnd t none = t.regs.blockCount.toNat := rfl
@[simp] theorem blkEnd_truncated (t : State) (k : Nat) : blkEnd t (some (.truncated k)) = (natWord k).toNat - 1 := rfl

/-- From `s`, stages have led to `t`, the last one raising `e` if any did, and elements they have not written are as
before. -/
structure State.OutputFrame (s : State) (e : Option FatalError) (t : State) : Prop where
  xing : KeptFrom t.regs.xingCount.toNat s.xing t.xing
  hist : KeptFrom t.regs.histCount.toNat s.hist t.hist
  sym : KeptFrom (symEnd t e) s.sym t.sym
  bit : KeptFrom (bitEnd t e) s.bit t.bit
  byte : KeptFrom t.regs.byteCount.toNat s.byte t.byte
  blk : KeptFrom (blkEnd t e) s.blk t.blk

theorem State.OutputFrame.refl (s : State) : s.OutputFrame none s :=
  ⟨keptFrom_refl _ _, keptFrom_refl _ _, keptFrom_refl _ _, keptFrom_refl _ _, keptFrom_refl _ _, keptFrom_refl _ _⟩

/-- A stage run in a state reached from `s` keeps the frame from `s`; if it is done, `P` holds too. -/
abbrev Stage.Frames (x : Stage) (s : State) (P : State → Prop) : Prop :=
  Ends x (fun t => s.OutputFrame none t ∧ P t) (fun t e => s.OutputFrame (some e) t)

/-! ## The stages, run in a state `s` reached from `s₀` in which their own buffers are as in `s₀` -/

section
variable {s₀ s : State}

theorem extractBody_frames (h : s₀.OutputFrame none s) (hxing : s.xing = s₀.xing) :
    (extractBody s).Frames s₀ (fun t =>
      t.hist = s.hist ∧ t.sym = s.sym ∧ t.bit = s.bit ∧ t.byte = s.byte ∧ t.blk = s.blk) := by
  have hsame : ∀ n, KeptFrom n s₀.xing s.xing := fun n => hxing ▸ keptFrom_refl n _
  rcases extractBody_cases s with ⟨_, e⟩ | ⟨_, _, e⟩ | ⟨_, _, kept, hk, e⟩ <;> rw [e]
  · exact { h with xing := hsame _ }
  · exact { h with xing := hsame _ }
  · have hlen : (crossings kept.2).length < 2 ^ 32 := by
      have h1 := crossings_length_le kept.2
      have h2 := trim_length_le (s.samples s.regs.sampleCount.toNat) s.regs.silenceThr.toNat
      have h3 := s.regs.sampleCount.isLt
      rw [← hk, samples_length] at h2
      omega
    refine ⟨{ h with xing := fun k hle => ?_ }, rfl, rfl, rfl, rfl, rfl⟩
    rw [setExtracted_xingCount, natWord_toNat hlen] at hle
    exact (getD_read?_writePrefix hle _).trans (congrFun hxing k)

/-- As many symbols as estimates, when every estimate has one (R106). -/
theorem length_of_mapSymbols_none {b : Baud} {es : List Freq} {tones : List Tone}
    (h : mapSymbols b 0 es = (tones, none)) : tones.length = es.length := by
  rcases mapSymbols_cases b 0 es with ⟨_, h', hs⟩ | ⟨_, _, _, h', _⟩ <;> rw [h] at h' <;> cases h'
  simpa using (congrArg List.length hs).symm

/-- As many symbols as estimates before the first one that has none (R106). -/
theorem length_of_mapSymbols_some {b : Baud} {es : List Freq} {tones : List Tone} {j : Nat} {f : Freq}
    (h : mapSymbols b 0 es = (tones, some (j, f))) : tones.length = j ∧ j < es.length := by
  rcases mapSymbols_cases b 0 es with ⟨_, h', _⟩ | ⟨_, k, _, h', hk, _, hs⟩ <;> rw [h] at h' <;> cases h'
  obtain ⟨hlt, -⟩ := List.getElem?_eq_some_iff.1 hk
  have hlen := congrArg List.length hs
  simp only [List.length_map, List.length_take] at hlen
  omega

theorem mapStage_frames (b : Baud) {es : List Freq} (hes : es.length < 2 ^ 32) (h : s₀.OutputFrame none s)
    (hsym : s.sym = s₀.sym) :
    (mapStage b es s).Frames s₀ (fun t => t.bit = s.bit ∧ t.byte = s.byte ∧ t.blk = s.blk) := by
  rcases mapStage_cases b es s with ⟨tones, hm, e⟩ | ⟨tones, j, f, hm, e⟩ <;> rw [e]
  · refine ⟨{ h with sym := fun k hle => ?_ }, rfl, rfl, rfl⟩
    rw [symEnd_none, setSymCount_symCount, natWord_toNat hes, ← length_of_mapSymbols_none hm] at hle
    exact (getD_read?_writePrefix hle _).trans (congrFun hsym k)
  · obtain ⟨hlen, hj⟩ := length_of_mapSymbols_some hm
    refine { h with sym := fun k hle => ?_ }
    rw [symEnd_unidentifiedTone, natWord_toNat (hj.trans hes), ← hlen] at hle
    exact (getD_read?_writePrefix hle _).trans (congrFun hsym k)

theorem classifyEstimates_frames {es : List Freq} (hes : es.length < 2 ^ 32) (h : s₀.OutputFrame none s)
    (hhist : s.hist = s₀.hist) (hsym : s.sym = s₀.sym) :
    (classifyEstimates es s).Frames s₀ (fun t => t.bit = s.bit ∧ t.byte = s.byte ∧ t.blk = s.blk) := by
  have hsame : ∀ n, KeptFrom n s₀.sym s.sym := fun n => hsym ▸ keptFrom_refl n _
  have hbuilt : KeptFrom (natWord (histogram es).length).toNat s₀.hist (s.setHistogram es.length (histogram es)).hist :=
    fun k hle => by
      rw [natWord_toNat ((histogram_length_le es).trans_lt hes)] at hle
      exact (getD_read?_writePrefix hle _).trans (congrFun hhist k)
  rcases classifyEstimates_cases es s with ⟨r, hr, e⟩ | ⟨b, _, e⟩ <;> rw [e]
  · rcases hr with ⟨_, rfl⟩ | ⟨_, rfl⟩ <;> exact { h with hist := hbuilt, sym := hsame _ }
  · have hstart : s₀.OutputFrame none ((s.setHistogram es.length (histogram es)).setBaud b.code) :=
      { h with hist := hbuilt }
    exact mapStage_frames b hes hstart hsym

theorem classifyBody_frames (h : s₀.OutputFrame none s) (hhist : s.hist = s₀.hist) (hsym : s.sym = s₀.sym) :
    (classifyBody s).Frames s₀ (fun t => t.bit = s.bit ∧ t.byte = s.byte ∧ t.blk = s.blk) := by
  have hist : ∀ n, KeptFrom n s₀.hist s.hist := fun n => hhist ▸ keptFrom_refl n _
  have sym : ∀ n, KeptFrom n s₀.sym s.sym := fun n => hsym ▸ keptFrom_refl n _
  rcases classifyBody_cases s with ⟨_, e⟩ | ⟨_, ⟨_, _, e⟩ | ⟨es, hes, e⟩⟩ <;> rw [e]
  · exact { h with hist := hist _, sym := sym _ }
  · exact { h with hist := hist _, sym := sym _ }
  · exact classifyEstimates_frames (estimates_length_lt hes) h hhist hsym

theorem decodeStage_frames (b : Baud) (h : s₀.OutputFrame none s) (hbit : s.bit = s₀.bit) :
    (decodeStage b (s.syms s.regs.symCount.toNat) s).Frames s₀ (fun t => t.byte = s.byte ∧ t.blk = s.blk) := by
  have hlen := bitDecode_length_le b (s.syms s.regs.symCount.toNat)
  have hlt := s.regs.symCount.isLt
  rw [syms_length] at hlen
  rcases decodeStage_cases b (s.syms s.regs.symCount.toNat) s with ⟨bits, hd, e⟩ | ⟨bits, p, ctx, hd, e⟩ <;>
    rw [e] <;> simp only [hd] at hlen
  · refine ⟨{ h with bit := fun k hle => ?_ }, rfl, rfl⟩
    rw [bitEnd_none, setDecoded_bitCount, natWord_toNat (by omega)] at hle
    exact (getD_read?_writePrefix hle _).trans (congrFun hbit k)
  · exact { h with bit := fun k hle => (getD_read?_writePrefix (hlen.trans hle) _).trans (congrFun hbit k) }

theorem bitdecBody_frames (h : s₀.OutputFrame none s) (hbit : s.bit = s₀.bit) :
    (bitdecBody s).Frames s₀ (fun t => t.byte = s.byte ∧ t.blk = s.blk) := by
  have hsame : ∀ n, KeptFrom n s₀.bit s.bit := fun n => hbit ▸ keptFrom_refl n _
  rcases bitdecBody_cases s with ⟨_, e⟩ | ⟨b, _, ⟨_, e⟩ | ⟨_, e⟩⟩ <;> rw [e]
  · exact { h with bit := hsame _ }
  · exact { h with bit := hsame _ }
  · exact decodeStage_frames b h hbit

theorem frameBody_frames (h : s₀.OutputFrame none s) (hbyte : s.byte = s₀.byte) :
    (frameBody s).Frames s₀ (fun t => t.blk = s.blk) := by
  rcases frameBody_cases s with ⟨_, e⟩ | ⟨_, y, hy, e⟩ <;> rw [e]
  · exact { h with byte := hbyte ▸ keptFrom_refl _ _ }
  · have hlen : y.length < 2 ^ 32 := by
      have := s.regs.bitCount.isLt
      rw [hy, frame_length, bits_length]
      omega
    refine ⟨{ h with byte := fun k hle => ?_ }, rfl⟩
    rw [setByteCount_byteCount, natWord_toNat hlen] at hle
    exact (getD_read?_writePrefix hle _).trans (congrFun hbyte k)

/-- The block loop reports the block after those it has made records of (R135, R136). -/
theorem assembleBlocks_truncated {y : List Byte} {fuel remaining off k e : Nat}
    (h : (assembleBlocks y fuel remaining off k).2 = some e) :
    e = k + (assembleBlocks y fuel remaining off k).1.length + 1 := by
  induction fuel generalizing remaining off k with
  | zero => cases h
  | succ fuel ih =>
    rw [assembleBlocks] at h ⊢
    split at h
    · cases h
    · rename_i h0
      simp only [h0, if_false] at h ⊢
      split at h
      · rename_i hmissing
        rw [if_pos hmissing]
        simpa using h.symm
      · rename_i hfit
        rw [if_neg hfit]
        have := ih h
        simp only [List.length_cons]
        omega

/-- A truncation at the header comes before any record, one at block k after those of the blocks before it (R135,
R138). -/
theorem assemble_truncated {y : List Byte} {e : Nat} {blocks : List BlockEntry} (h : assemble y = .truncated e blocks) :
    (e = 0 ∧ blocks = []) ∨ e = blocks.length + 1 := by
  unfold assemble at h
  split at h
  · cases h
    exact .inl ⟨rfl, rfl⟩
  · simp only at h
    split at h
    · rename_i hr
      cases h
      exact .inr (by simpa using assembleBlocks_truncated hr)
    · cases h

theorem assembleBody_frames (h : s₀.OutputFrame none s) (hblk : s.blk = s₀.blk) :
    (assembleBody s).Frames s₀ (fun _ => True) := by
  have hlen := assemble_blocks_length_le (s.bytes s.regs.byteCount.toNat)
  rcases assembleBody_cases s with ⟨_, e⟩ | ⟨_, ⟨k, blocks, ha, e⟩ | ⟨hdr, blocks, ha, e⟩⟩ <;> rw [e]
  · exact { h with blk := hblk ▸ keptFrom_refl _ _ }
  · refine { h with blk := fun j hle => (getD_read?_writePrefix ?_ _).trans (congrFun hblk j) }
    simp only [ha, Assembled.blocks] at hlen
    rcases assemble_truncated ha with ⟨_, rfl⟩ | rfl
    · exact Nat.zero_le j
    · rw [blkEnd_truncated, natWord_toNat (by omega)] at hle
      exact hle
  · simp only [ha, Assembled.blocks] at hlen
    refine ⟨{ h with blk := fun j hle => (getD_read?_writePrefix ?_ _).trans (congrFun hblk j) }, trivial⟩
    simp only [blkEnd_none, setImage_blockCount, BitVec.toNat_ofNat] at hle
    omega

end

end Sys2Proof.Machine
end

section
/-! SUPPORT. The frames of the commands over whole steps (R54, R152), and the result of ASSEMBLE (R138). -/

namespace Sys2Proof.Machine

/-! ## DECODE's stages, the last ones first -/

section
variable {s₀ s : State}

theorem fromFrame_frames (h : s₀.OutputFrame none s) (hbyte : s.byte = s₀.byte) (hblk : s.blk = s₀.blk) :
    (fromFrame s).Frames s₀ (fun _ => True) :=
  ends_andThen (frameBody_frames h hbyte) fun _ ⟨ht, hblk'⟩ => assembleBody_frames ht (hblk'.trans hblk)

theorem fromBitdec_frames (h : s₀.OutputFrame none s) (hbit : s.bit = s₀.bit) (hbyte : s.byte = s₀.byte)
    (hblk : s.blk = s₀.blk) : (fromBitdec s).Frames s₀ (fun _ => True) :=
  ends_andThen (bitdecBody_frames h hbit) fun _ ⟨ht, hbyte', hblk'⟩ =>
    fromFrame_frames ht (hbyte'.trans hbyte) (hblk'.trans hblk)

theorem fromClassify_frames (h : s₀.OutputFrame none s) (hhist : s.hist = s₀.hist) (hsym : s.sym = s₀.sym)
    (hbit : s.bit = s₀.bit) (hbyte : s.byte = s₀.byte) (hblk : s.blk = s₀.blk) :
    (fromClassify s).Frames s₀ (fun _ => True) :=
  ends_andThen (classifyBody_frames h hhist hsym) fun _ ⟨ht, hbit', hbyte', hblk'⟩ =>
    fromBitdec_frames ht (hbit'.trans hbit) (hbyte'.trans hbyte) (hblk'.trans hblk)

/-- DECODE clears the counts and writes no element before its first stage (R146). -/
theorem clearOutputs_outputFrame (s : State) (e : Option FatalError) : s.OutputFrame e s.clearOutputs :=
  ⟨keptFrom_refl _ _, keptFrom_refl _ _, keptFrom_refl _ _, keptFrom_refl _ _, keptFrom_refl _ _, keptFrom_refl _ _⟩

theorem decodeBody_frames (s : State) : (decodeBody s).Frames s (fun _ => True) := by
  rcases decodeBody_cases s with ⟨_, e⟩ | ⟨_, _, e⟩ | ⟨_, _, _, e⟩ | ⟨_, _, _, e⟩ <;> rw [e]
  · exact clearOutputs_outputFrame s _
  · exact clearOutputs_outputFrame s _
  · exact clearOutputs_outputFrame s _
  · rw [pipeline_eq]
    exact ends_andThen (extractBody_frames (clearOutputs_outputFrame s none) rfl)
      fun _ ⟨ht, hhist, hsym, hbit, hbyte, hblk⟩ => fromClassify_frames ht hhist hsym hbit hbyte hblk

end

/-! ## What the buffers hold after a command, in terms of the registers that report it -/

/-- From `s`, a command has completed in `t`, and the elements that the count registers and the report in `t` put past
the end of its writes are as before. -/
structure State.BufferFrame (s t : State) : Prop where
  xing : ∀ k, t.regs.xingCount.toNat ≤ k → t.xing k = s.xing k
  hist : ∀ k, t.regs.histCount.toNat ≤ k → t.hist k = s.hist k
  sym : ∀ k, t.regs.symCount.toNat ≤ k → ¬ (t.regs.status.errCode = 4 ∧ k < t.regs.errIndex.toNat) → t.sym k = s.sym k
  bit : ∀ k, t.regs.bitCount.toNat ≤ k → ¬ (t.regs.status.errCode = 5 ∧ k < t.regs.symCount.toNat) → t.bit k = s.bit k
  byte : ∀ k, t.regs.byteCount.toNat ≤ k → t.byte k = s.byte k
  blk : ∀ k, t.regs.blockCount.toNat ≤ k → ¬ (t.regs.status.errCode = 7 ∧ k + 1 < t.regs.errIndex.toNat) →
    t.blk k = s.blk k

section
variable {t : State} {e : FatalError} {k : Nat}

theorem symEnd_le (hk : t.regs.symCount.toNat ≤ k) (hne : ¬ (e.code = 4 ∧ k < e.report.index.toNat)) :
    symEnd t (some e) ≤ k := by
  cases e with
  | unidentifiedTone j f => simpa using hne
  | _ => exact hk

theorem bitEnd_le (hk : t.regs.bitCount.toNat ≤ k) (hne : ¬ (e.code = 5 ∧ k < t.regs.symCount.toNat)) :
    bitEnd t (some e) ≤ k := by
  cases e with
  | invalidSequence p ctx => simpa [bitEnd] using hne
  | _ => exact hk

theorem blkEnd_le (hk : t.regs.blockCount.toNat ≤ k) (hne : ¬ (e.code = 7 ∧ k + 1 < e.report.index.toNat)) :
    blkEnd t (some e) ≤ k := by
  cases e with
  | truncated j =>
    have : (natWord j).toNat ≤ k + 1 := by simpa using hne
    rw [blkEnd_truncated]
    omega
  | _ => exact hk

end

theorem complete_bufferFrame {s : State} {x : Stage} {P : State → Prop} (h : x.Frames s P) :
    s.BufferFrame x.complete := by
  cases x with
  | done u =>
    obtain ⟨hu, -⟩ : s.OutputFrame none u ∧ P u := h
    exact ⟨hu.xing, hu.hist, fun k hk _ => hu.sym k hk, fun k hk _ => hu.bit k hk, hu.byte, fun k hk _ => hu.blk k hk⟩
  | raised u e =>
    have hu : s.OutputFrame (some e) u := h
    exact ⟨hu.xing, hu.hist, fun k hk hne => hu.sym k (symEnd_le hk hne), fun k hk hne => hu.bit k (bitEnd_le hk hne),
      hu.byte, fun k hk hne => hu.blk k (blkEnd_le hk hne)⟩

/-! ## The frames -/

/-- Settles O53: each stage writes its own buffer once, from element 0 to where its register or the report says, and the
stages after it leave that buffer and register alone. -/
theorem decodeFrame : Obligations.DecodeFrame := by
  intro s t he
  have hc := exec_commandFrame (by decide) he
  injection he with he
  subst he
  have hb := complete_bufferFrame (decodeBody_frames s)
  exact ⟨hc.outside, hc.status, hc.irqEn, hc.sampleRate, hc.format, hc.sampleCount, hc.silenceThr, hc.samp, hb.xing,
    hb.hist, hb.sym, hb.bit, hb.byte, hb.blk⟩

/-- Settles O26: each case of EXTRACT's body writes its three registers, and XING if no check fails. -/
theorem extractFrame : Obligations.ExtractFrame := by
  intro s t he
  have hc := exec_commandFrame (by decide) he
  injection he with he
  subst he
  have hb := complete_bufferFrame (extractBody_frames (.refl s) rfl)
  rcases extractBody_cases s with ⟨_, e⟩ | ⟨_, _, e⟩ | ⟨_, _, _, _, e⟩ <;> rw [e] at hc hb ⊢ <;>
    exact ⟨hc.outside, hc.status, rfl, rfl, rfl, rfl, hb.xing⟩

/-- Settles O36: CLASSIFY clears its registers, or writes HIST and then SYM as far as it gets. -/
theorem classifyFrame : Obligations.ClassifyFrame := by
  intro s t he
  have hc := exec_commandFrame (by decide) he
  injection he with he
  subst he
  have hb := complete_bufferFrame (classifyBody_frames (.refl s) rfl rfl)
  rcases classifyBody_cases s with ⟨_, e⟩ | ⟨_, ⟨_, _, e⟩ | ⟨es, _, e⟩⟩ <;> rw [e] at hc hb ⊢
  · exact ⟨hc.outside, hc.status, rfl, rfl, rfl, hb.hist, hb.sym⟩
  · exact ⟨hc.outside, hc.status, rfl, rfl, rfl, hb.hist, hb.sym⟩
  · rcases classifyEstimates_cases es s with ⟨_, _, e⟩ | ⟨b, _, e⟩ <;> rw [e] at hc hb ⊢
    · exact ⟨hc.outside, hc.status, rfl, rfl, rfl, hb.hist, hb.sym⟩
    · rcases mapStage_cases b es ((s.setHistogram es.length (histogram es)).setBaud b.code) with
        ⟨_, _, e⟩ | ⟨_, _, _, _, e⟩ <;> rw [e] at hc hb ⊢ <;>
        exact ⟨hc.outside, hc.status, rfl, rfl, rfl, hb.hist, hb.sym⟩

/-- The decoder writes no element of BIT past the bits it emits (R118). -/
theorem decodeStage_bit (b : Baud) (syms : List Tone) (s : State) {k : Nat} (hk : (bitDecode b syms).1.length ≤ k) :
    (decodeStage b syms s).complete.bit k = s.bit k := by
  rcases decodeStage_cases b syms s with ⟨bits, hd, e⟩ | ⟨bits, _, _, hd, e⟩ <;> rw [e] <;> rw [hd] at hk <;>
    exact getD_read?_writePrefix hk _

/-- Settles O41: BITDEC writes the bits the decoder emits, at most one for each symbol, once its checks have passed. -/
theorem bitdecFrame : Obligations.BitdecFrame := by
  intro s t he
  have hc := exec_commandFrame (by decide) he
  injection he with he
  subst he
  rcases bitdecBody_cases s with ⟨_, e⟩ | ⟨b, hb, ⟨_, e⟩ | ⟨_, e⟩⟩ <;> rw [e] at hc ⊢
  · exact ⟨hc.outside, hc.status, rfl, rfl, rfl, rfl, fun _ _ _ _ => rfl, fun _ _ => rfl⟩
  · exact ⟨hc.outside, hc.status, rfl, rfl, rfl, rfl, fun _ _ _ _ => rfl, fun _ _ => rfl⟩
  · have hbit : ∀ k, (bitDecode b (s.syms s.regs.symCount.toNat)).1.length ≤ k →
        (decodeStage b (s.syms s.regs.symCount.toNat) s).complete.bit k = s.bit k :=
      fun _ => decodeStage_bit b _ s
    have hlen := bitDecode_length_le b (s.syms s.regs.symCount.toNat)
    rw [syms_length] at hlen
    simp only [hb, Option.some.injEq, reduceCtorEq, or_false, ← syms_eq]
    rcases decodeStage_cases b (s.syms s.regs.symCount.toNat) s with ⟨_, _, e⟩ | ⟨_, _, _, _, e⟩ <;>
      rw [e] at hc hbit ⊢ <;>
      exact ⟨hc.outside, hc.status, rfl, rfl, rfl, rfl, fun _ k hb' => hb' ▸ hbit k, fun k hk => hbit k (hlen.trans hk)⟩

/-- Settles O44: FRAME writes BYTE_COUNT, and BYTE below it if its check passes. -/
theorem frameFrame : Obligations.FrameFrame := by
  intro s t he
  have hc := exec_commandFrame (by decide) he
  injection he with he
  subst he
  have hb := complete_bufferFrame (frameBody_frames (.refl s) rfl)
  rcases frameBody_cases s with ⟨_, e⟩ | ⟨_, _, _, e⟩ <;> rw [e] at hc hb ⊢ <;>
    exact ⟨hc.outside, hc.status, rfl, rfl, rfl, rfl, hb.byte⟩

/-- Settles O50: ASSEMBLE writes the image registers, and BLK as far as the byte stream reaches. -/
theorem assembleFrame : Obligations.AssembleFrame := by
  intro s t he
  have hc := exec_commandFrame (by decide) he
  injection he with he
  subst he
  have hb := complete_bufferFrame (assembleBody_frames (.refl s) rfl)
  rcases assembleBody_cases s with ⟨_, e⟩ | ⟨_, ⟨_, _, _, e⟩ | ⟨_, _, _, e⟩⟩ <;> rw [e] at hc hb ⊢ <;>
    exact ⟨hc.outside, hc.status, rfl, rfl, rfl, hb.blk⟩

/-! ## The result of ASSEMBLE -/

/-- Settles O48: with the check passed and an image in the byte stream, only the last case of ASSEMBLE's body is
left. -/
theorem assembleResult : Obligations.AssembleResult := by
  intro s hdr blocks hfit ha
  rw [← bytes_eq] at ha
  have hbody : assembleBody s = .done ((s.writeBlocks blocks).setImage hdr blocks) := by
    rcases assembleBody_cases s with ⟨hgt, _⟩ | ⟨_, ⟨_, _, ha', _⟩ | ⟨_, _, ha', e⟩⟩
    · omega
    · rw [ha] at ha'
      cases ha'
    · rw [ha] at ha'
      cases ha'
      exact e
  have hfail : failCount blocks = (blocks.filter (fun b => b.ok = false)).length := by
    simp [failCount, List.countP_eq_length_filter]
  have hexec : exec .assemble s = .next (assembleBody s).complete := rfl
  rw [hexec, hbody, ← hfail]
  rfl

end Sys2Proof.Machine
end

section
/-! SUPPORT. Host accesses over whole steps (R57 to R68, R73): the step of a read and of a write, what each register reads
as a number, and the elements of SYM, BIT and BYTE. -/

namespace Sys2Proof.Machine

/-! ## The step of a host access -/

section
variable {s : State} {a v : Word} {rest : List Input}

/-- A read on an idle core takes its place in the replies. -/
theorem step_read_idle (hi : s.Idle) (ha : aligned a = true) (hin : s.inputs = .read a :: rest) :
    step s = .next { s with inputs := rest, replies := readWord a s :: s.replies } := by
  obtain ⟨hrst, hbusy⟩ := hi
  simp only [step, hin, ha, if_true, hostRead, hrst, hbusy, Bool.false_and, Bool.false_eq_true, if_false]
  rfl

/-- A read on a busy core: the word if the target is readable, else the next free value (R73). -/
theorem step_read_busy (hb : s.Busy) (ha : aligned a = true) (hin : s.inputs = .read a :: rest) :
    step s = .next (if readableBusy (targetOf s.params a) then
        { s with inputs := rest, replies := readWord a s :: s.replies }
      else { s with inputs := rest, replies := Config.busyRead s.draws :: s.replies, draws := s.draws + 1 }) := by
  obtain ⟨hrst, hbusy⟩ := hb
  cases hr : readableBusy (targetOf s.params a) <;>
    simp only [step, hin, ha, hostRead, hrst, hbusy, hr, if_true, Bool.not_true, Bool.not_false, Bool.and_true,
      Bool.and_false, Bool.false_eq_true, if_false] <;>
    rfl

/-- A write on an idle core acts on what its address names (R61, R68). -/
theorem step_write_idle (hi : s.Idle) (ha : aligned a = true) (hin : s.inputs = .write a v :: rest) :
    step s = .next (writeIdle (targetOf s.params a) v { s with inputs := rest }) := by
  obtain ⟨hrst, hbusy⟩ := hi
  simp [step, hin, ha, hostWrite, hrst, hbusy]

end

@[simp] theorem readWord_regAddr (r : Reg) (s : State) : readWord (regAddr r) s = readReg r s := by simp [readWord]

theorem readWord_elementAddr {s : State} (hp : s.params.Legal) {w : Window} {k f : Nat}
    (hk : k < windowCapacity s.params w) (hf : 4 * f < windowStride w) :
    readWord (elementAddr w k f) s = readElement w k f s := by
  rw [readWord, targetOf_elementAddr hp hk hf]

/-- An address that names a register is its offset. -/
theorem eq_regAddr_of_targetOf {p : Params} {a : Word} {r : Reg} (h : targetOf p a = .reg r) : a = regAddr r := by
  unfold targetOf at h
  split at h
  · split at h
    · rename_i hoff
      cases h
      rw [regAddr, offset_of_ofOffset hoff, BitVec.ofNat_toNat, BitVec.setWidth_eq]
    · cases h
  · split at h
    · cases h
    · simp only at h
      split at h <;> cases h

/-- Only ID, CTRL and STATUS can be read while BUSY = 1 (R73). -/
theorem readableBusy_eq_false {p : Params} {a : Word} (hid : a ≠ 0x000#32) (hctrl : a ≠ 0x004#32)
    (hstatus : a ≠ 0x00C#32) : readableBusy (targetOf p a) = false := by
  cases ht : targetOf p a with
  | element w k f => rfl
  | unmapped => rfl
  | reg r =>
    have ha := eq_regAddr_of_targetOf ht
    cases r with
    | id => exact absurd ha hid
    | ctrl => exact absurd ha hctrl
    | status => exact absurd ha hstatus
    | _ => rfl

theorem boolWord_eq (b : Bool) : boolWord b = if b then 1#32 else 0#32 := by cases b <;> rfl

/-- Settles O9: the three registers that can be read are served as ever, and any other address gets the next free
value. -/
theorem readsWhileBusy : Obligations.ReadsWhileBusy := by
  intro s a rest hb ha hin
  rw [step_read_busy hb ((aligned_iff a).2 ha) hin]
  refine ⟨?_, ?_, ?_, fun hid hctrl hstatus => by rw [readableBusy_eq_false hid hctrl hstatus]; rfl⟩
  · rintro rfl
    rw [show (0x000#32 : Word) = regAddr .id from rfl, targetOf_regAddr, readWord_regAddr]
    rfl
  · rintro rfl
    rw [show (0x004#32 : Word) = regAddr .ctrl from rfl, targetOf_regAddr, readWord_regAddr, ← boolWord_eq]
    rfl
  · rintro rfl
    rw [show (0x00C#32 : Word) = regAddr .status from rfl, targetOf_regAddr, readWord_regAddr]
    rfl

/-! ## What the registers read as numbers -/

/-- A word that reads as `n`, with no bit from `k` on. -/
structure Reads (x : Word) (k n : Nat) : Prop where
  toNat : x.toNat = n
  lt : n < 2 ^ k

/-- A field in the lowest bits. -/
theorem reads_low {w : Nat} (y : BitVec w) (hw : w ≤ 32) : Reads (y.setWidth 32) w y.toNat :=
  ⟨BitVec.toNat_setWidth_of_le hw, y.isLt⟩

theorem reads_bit (b : Bool) : Reads (bitAt b 0) 1 b.toNat := by cases b <;> exact ⟨rfl, by decide⟩

/-- A field above the bits of a word adds its value at its place. -/
theorem Reads.field {x : Word} {k n : Nat} (h : Reads x k n) {w j : Nat} (y : BitVec w) (hkj : k ≤ j)
    (hj : j + w ≤ 32) : Reads (x ||| y.setWidth 32 <<< j) (j + w) (n + 2 ^ j * y.toNat) := by
  have hx : n < 2 ^ j := h.lt.trans_le (Nat.pow_le_pow_right Nat.two_pos hkj)
  have hsum : n + 2 ^ j * y.toNat < 2 ^ (j + w) :=
    calc n + 2 ^ j * y.toNat < 2 ^ j * (y.toNat + 1) := by rw [Nat.mul_succ]; omega
      _ ≤ 2 ^ j * 2 ^ w := Nat.mul_le_mul_left _ y.isLt
      _ = 2 ^ (j + w) := (Nat.pow_add 2 j w).symm
  have hy : 2 ^ j * y.toNat < 2 ^ 32 :=
    (Nat.le_add_left _ n).trans_lt (hsum.trans_le (Nat.pow_le_pow_right Nat.two_pos hj))
  refine ⟨?_, hsum⟩
  rw [BitVec.toNat_or, BitVec.toNat_shiftLeft, BitVec.toNat_setWidth_of_le (by omega), h.toNat, Nat.shiftLeft_eq,
    Nat.mul_comm, Nat.mod_eq_of_lt hy, Nat.or_comm, Nat.mul_comm, ← Nat.shiftLeft_eq,
    ← Nat.shiftLeft_add_eq_or_of_lt hx, Nat.add_comm]

theorem Reads.bit {x : Word} {k n : Nat} (h : Reads x k n) {j : Nat} (b : Bool) (hkj : k ≤ j) (hj : j < 32) :
    Reads (x ||| bitAt b j) (j + 1) (n + 2 ^ j * b.toNat) := by
  rw [← BitVec.toNat_ofBool]
  exact h.field (BitVec.ofBool b) hkj hj

/-- STATUS as a number (R29). -/
theorem Status.toWord_toNat (t : Status) :
    t.toWord.toNat = t.busy.toNat + 2 * t.done.toNat + 4 * t.err.toNat + 8 * t.werr.toNat + 16 * t.imageValid.toNat +
      32 * t.histValid.toNat + 256 * t.errCode.toNat + 4096 * t.lastCmd.toNat := by
  have hflags := (((((reads_bit t.busy).bit t.done le_rfl (by decide)).bit t.err le_rfl (by decide)).bit t.werr le_rfl
    (by decide)).bit t.imageValid le_rfl (by decide)).bit t.histValid le_rfl (by decide)
  exact ((hflags.field (j := 8) t.errCode (by decide) (by decide)).field (j := 12) t.lastCmd le_rfl (by decide)).toNat

/-- FORMAT as a number (R31). -/
theorem Format.toWord_toNat (f : Format) : f.toWord.toNat = f.channels.toNat + 256 * f.compressed.toNat :=
  ((reads_low f.channels (by decide)).bit f.compressed le_rfl (by decide)).toNat

/-- HDR_CKSUM as a number (R41). -/
theorem HdrCksum.toWord_toNat (h : HdrCksum) :
    h.toWord.toNat = h.computed.toNat + 256 * h.stored.toNat + 65536 * h.ok.toNat :=
  (((reads_low h.computed (by decide)).field h.stored le_rfl (by decide)).bit h.ok le_rfl (by decide)).toNat

/-- Settles O11: the offsets are the address map's, and each register reads as its fields at their places. -/
theorem registerReads : Obligations.RegisterReads := by
  refine ⟨fun p => by and_intros <;> rfl, fun s r rest hi hin => ⟨readReg r s, ?_, ?_⟩⟩
  · rw [← readWord_regAddr]
    exact step_read_idle hi (aligned_regAddr r) hin
  · cases r with
    | ctrl => exact (reads_bit s.regs.irqEn).toNat
    | status => exact s.regs.status.toWord_toNat
    | format => exact s.regs.format.toWord_toNat
    | hdrCksum => exact s.regs.hdrCksum.toWord_toNat
    | baud | errCtx | errCtxLen | hdrNameHi | hdrId | hdrType | hdrLength | hdrLoad | hdrGo | blockCount
    | blockFailCount => exact (reads_low _ (by decide)).toNat
    | _ => rfl

/-- Settles O18: the reset column is all zeros but for ID and SILENCE_THR. -/
theorem resetStateReadsAsTabled : Obligations.ResetStateReadsAsTabled := by
  refine ⟨fun r hid hthr => ?_, rfl, rfl, rfl, rfl, rfl⟩
  cases r with
  | id => exact absurd rfl hid
  | silenceThr => exact absurd rfl hthr
  | _ => rfl

/-! ## Register writes -/

/-- Settles O12: the write reaches `writeReg` of the register the address names, whose cases are the RW and W1C
fields. -/
theorem registerWrites : Obligations.RegisterWrites := by
  intro s r v rest hi hcmd hin
  rw [step_write_idle hi (aligned_regAddr r) hin, targetOf_regAddr]
  cases r with
  | cmd => exact absurd rfl hcmd
  | silenceThr =>
    have hw : (v.setWidth s.params.sampleBits).setWidth 32 = BitVec.ofNat 32 (v.toNat % 2 ^ s.params.sampleBits) :=
      BitVec.eq_of_toNat_eq (by simp)
    rw [← hw]
    rfl
  | format => rw [← BitVec.setWidth_eq_extractLsb' (by decide)]; rfl
  | baud => rw [← BitVec.setWidth_eq_extractLsb' (by decide)]; rfl
  | _ => rfl

/-! ## The elements of SYM, BIT and BYTE -/

theorem toBit_ofBit (b : Bool) : (Tone.ofBit b).toBit = b := by cases b <;> rfl

theorem ofBit_eq (b : Bool) : Tone.ofBit b = if b = true then .high else .low := by cases b <;> rfl

theorem boolWord_toBit (t : Tone) : boolWord t.toBit = if t = .high then 1#32 else 0#32 := by cases t <;> rfl

/-- The low bit of a word, as a word. -/
theorem boolWord_getLsbD (v : Word) : boolWord (v.getLsbD 0) = v &&& 1#32 := by
  rw [BitVec.and_one_eq_setWidth_ofBool_getLsbD, boolWord, bitAt, BitVec.shiftLeft_zero]

/-- The low byte of a word, as a word. -/
theorem setWidth_setWidth_byte (v : Word) : (v.setWidth 8).setWidth 32 = v &&& 0xFF#32 := by
  apply BitVec.eq_of_toNat_eq
  have hmask : v.toNat &&& 255 = v.toNat % 2 ^ 8 := Nat.and_two_pow_sub_one_eq_mod v.toNat 8
  rw [BitVec.toNat_and, BitVec.toNat_setWidth_of_le (by decide), BitVec.toNat_setWidth]
  exact hmask.symm

theorem getD_read?_write_same {α : Type} (b : Buf α) (k : Nat) (x d : α) :
    (Buf.read? (Buf.write b k x) k).getD d = x := by rw [read?_write_same, Option.getD_some]

theorem getD_read?_write_other {α : Type} (b : Buf α) {j k : Nat} (x d : α) (h : j ≠ k) :
    (Buf.read? (Buf.write b k x) j).getD d = (Buf.read? b j).getD d := by rw [read?_write_other b x h]

section
variable {s : State} {w : Window} {k : Nat} {v : Word} {rest : List Input}

theorem step_read_element (hp : s.params.Legal) (hi : s.Idle) (hk : k < windowCapacity s.params w)
    (hin : s.inputs = .read (elementAddr w k 0) :: rest) :
    step s = .next { s with inputs := rest, replies := readElement w k 0 s :: s.replies } := by
  rw [step_read_idle hi (aligned_elementAddr hp hk (windowStride_pos w)) hin,
    readWord_elementAddr hp hk (windowStride_pos w)]

theorem step_write_element (hp : s.params.Legal) (hi : s.Idle) (hk : k < windowCapacity s.params w)
    (hin : s.inputs = .write (elementAddr w k 0) v :: rest) :
    step s = .next (writeElement w k v { s with inputs := rest }) := by
  rw [step_write_idle hi (aligned_elementAddr hp hk (windowStride_pos w)) hin,
    targetOf_elementAddr hp hk (windowStride_pos w)]
  rfl

@[simp] theorem writeElement_params (w : Window) (k : Nat) (v : Word) (s : State) :
    (writeElement w k v s).params = s.params := by cases w <;> rfl

@[simp] theorem sym_writeElement (k : Nat) (v : Word) (s : State) :
    (writeElement .sym k v s).sym k = Tone.ofBit (v.getLsbD 0) := getD_read?_write_same _ k _ _

@[simp] theorem bit_writeElement (k : Nat) (v : Word) (s : State) :
    (writeElement .bit k v s).bit k = v.getLsbD 0 := getD_read?_write_same _ k _ _

@[simp] theorem byte_writeElement (k : Nat) (v : Word) (s : State) :
    (writeElement .byte k v s).byte k = v.setWidth 8 := getD_read?_write_same _ k _ _

/-- What an element just written reads as (R66). -/
theorem readWord_writeElement (hp : s.params.Legal) (hk : k < windowCapacity s.params w) :
    readWord (elementAddr w k 0) (writeElement w k v s) = readElement w k 0 (writeElement w k v s) :=
  readWord_elementAddr (by simpa using hp) (by simpa using hk) (windowStride_pos w)

theorem readWord_write_sym (hp : s.params.Legal) (hk : k < s.params.maxSamples) :
    readWord (elementAddr .sym k 0) (writeElement .sym k v s) = v &&& 1#32 := by
  rw [readWord_writeElement (w := .sym) hp hk, readElement, sym_writeElement, toBit_ofBit, boolWord_getLsbD]

theorem readWord_write_bit (hp : s.params.Legal) (hk : k < s.params.maxSamples) :
    readWord (elementAddr .bit k 0) (writeElement .bit k v s) = v &&& 1#32 := by
  rw [readWord_writeElement (w := .bit) hp hk, readElement, bit_writeElement, boolWord_getLsbD]

theorem readWord_write_byte (hp : s.params.Legal) (hk : k < s.params.maxSamples) :
    readWord (elementAddr .byte k 0) (writeElement .byte k v s) = v &&& 0xFF#32 := by
  rw [readWord_writeElement (w := .byte) hp hk, readElement, byte_writeElement, setWidth_setWidth_byte]

end

/-- Settles O14: the step is `readElement` or `writeElement` of the element, and an element written reads back. -/
theorem symbolBitAndByteWritesThenRead : Obligations.SymbolBitAndByteWritesThenRead := by
  intro s k v rest hp hi hk
  have hp' : ({ s with inputs := rest } : State).params.Legal := hp
  refine ⟨fun hin => ?_, fun hin => ?_, fun hin => ?_, fun hin => ?_, fun hin => ?_, fun hin => ?_⟩
  · rw [step_read_element (w := .sym) hp hi hk hin, readElement, boolWord_toBit]
  · rw [step_read_element (w := .bit) hp hi hk hin, readElement, boolWord_eq]
  · rw [step_read_element (w := .byte) hp hi hk hin, readElement]
  · exact ⟨_, step_write_element (w := .sym) hp hi hk hin, (sym_writeElement k v _).trans (ofBit_eq _),
      readWord_write_sym hp' hk, fun j hj => getD_read?_write_other _ _ _ hj, rfl, rfl, rfl⟩
  · exact ⟨_, step_write_element (w := .bit) hp hi hk hin, bit_writeElement k v _,
      readWord_write_bit hp' hk, fun j hj => getD_read?_write_other _ _ _ hj, rfl, rfl, rfl⟩
  · exact ⟨_, step_write_element (w := .byte) hp hi hk hin,
      (byte_writeElement k v _).trans (BitVec.setWidth_eq_extractLsb' (by decide)),
      readWord_write_byte hp' hk, fun j hj => getD_read?_write_other _ _ _ hj, rfl, rfl, rfl⟩

end Sys2Proof.Machine
end

section
/-! SUPPORT. What a host access is in every state, the commands at the core's boundary (R139, R140), the addresses that
name nothing (R61), and the elements of SAMP, XING, HIST and BLK. -/

namespace Sys2Proof.Machine

/-! ## Requests: which are served, and what a read can change -/

section
variable {s : State} {a v : Word} {rest : List Input}

theorem step_read (hin : s.inputs = .read a :: rest) :
    step s = if aligned a then .next (hostRead a { s with inputs := rest }) else .refused (.misaligned a) := by
  rw [step, hin]

theorem step_write (hin : s.inputs = .write a v :: rest) :
    step s = if aligned a then .next (hostWrite a v { s with inputs := rest }) else .refused (.misaligned a) := by
  rw [step, hin]

/-- An outcome behind the check of R58 is refused without alignment and the next state with it. -/
theorem served_or_refused (a : Word) (t : State) {o : Host.Outcome State Fault Refusal}
    (ho : o = if aligned a then .next t else .refused (.misaligned a)) :
    (a.toNat % 4 ≠ 0 → o = .refused (.misaligned a)) ∧ (a.toNat % 4 = 0 → ∃ u, o = .next u) :=
  ⟨fun h => ho.trans (if_neg (mt (aligned_iff a).1 h)), fun h => ⟨t, ho.trans (if_pos ((aligned_iff a).2 h))⟩⟩

/-- A write on a busy core acts on CTRL and the W1C fields of STATUS, or sets WERR (R166). -/
theorem step_write_busy (hb : s.Busy) (ha : aligned a = true) (hin : s.inputs = .write a v :: rest) :
    step s = .next (writeBusy (targetOf s.params a) v { s with inputs := rest }) := by
  obtain ⟨hrst, hbusy⟩ := hb
  simp [step_write hin, ha, hostWrite, hrst, hbusy]

end

/-- Settles O7: the check for alignment is all that stands before a host access, whatever state the core is in. -/
theorem onlyMisalignedRequestsAreRefused : Obligations.OnlyMisalignedRequestsAreRefused := by
  rintro s a v rest (hin | hin)
  · exact served_or_refused a _ (step_read hin)
  · exact served_or_refused a _ (step_write hin)

/-- Settles O8: a step that serves a read is `hostRead`, which adds a reply and may count a free value. -/
theorem readsHaveNoSideEffects : Obligations.ReadsHaveNoSideEffects := by
  intro s t a rest hin hstep
  rw [step_read hin] at hstep
  split at hstep
  · injection hstep with ht
    subst ht
    obtain ⟨v, hv | hv⟩ := hostRead_cases a { s with inputs := rest } <;>
      · rw [hv]
        exact ⟨rfl, rfl, rfl, rfl, rfl, rfl, rfl, rfl, List.cons_ne_nil _ _⟩
  · cases hstep

/-! ## The engine's turn, and the acceptance of a command -/

section
variable {s : State} {w : Word} {rest : List Input}

theorem step_no_input (hin : s.inputs = []) : step s = engineTurn s := by rw [step, hin]

theorem step_engine (hin : s.inputs = .engine :: rest) : step s = engineTurn { s with inputs := rest } := by
  rw [step, hin]

/-- A queue that gives the engine the next move gives it its turn and is as it was after it. -/
theorem step_engineFirst (hin : s.inputs = engineFirst rest) : step s = engineTurn { s with inputs := rest } := by
  cases rest with
  | nil => rw [step_no_input hin, ← show s.inputs = [] from hin]
  | cons i rest => exact step_engine hin

/-- A pending command is performed (R140). -/
theorem engineTurn_pending (hr : s.rst = false) (hp : s.pending = some w) : engineTurn s = exec (decodeCmd w) s := by
  simp [engineTurn, State.ready, hr, hp]

/-- Without a pending command, or under reset, the engine does nothing (R140, R162). -/
theorem engineTurn_idle (h : s.pending = none ∨ s.rst = true) : engineTurn s = .next s := by
  rcases h with h | h <;> simp [engineTurn, State.ready, h]

end

/-- Settles O3: whether or not the turn is listed, it is `engineTurn` of the state without it, and `withFetchWord` leaves
its word pending before such a turn. -/
theorem stepRunsThePendingCommand : Obligations.StepRunsThePendingCommand := by
  refine ⟨fun s w rest hr hp => ⟨fun hin => ?_, fun hin => ?_⟩, fun s rest h => ⟨fun hin => ?_, fun hin => ?_⟩,
    fun s w hw => ?_⟩
  · rw [step_no_input hin, engineTurn_pending hr hp]
  · rw [step_engine hin]
    exact engineTurn_pending hr hp
  · rw [step_no_input hin, engineTurn_idle h]
  · rw [step_engine hin]
    exact engineTurn_idle h
  · rw [State.withFetchWord, Nat.mod_eq_of_lt hw, step_engineFirst (s := s.issued _) rfl]
    exact engineTurn_pending rfl rfl

theorem clearsImageValid_eq (i : Instr) :
    clearsImageValid i = decide (i ∈ [Instr.decode, .extract, .classify, .bitdec, .frame, .assemble]) := by
  cases i <;> rfl

theorem clearsHistValid_eq (i : Instr) : clearsHistValid i = decide (i ∈ [Instr.decode, .classify]) := by
  cases i <;> rfl

/-- Settles O4: 0x008 names CMD, whose write is the acceptance on an idle core and no more than WERR on a busy one. -/
theorem cmdWriteIsAccepted : Obligations.CmdWriteIsAccepted := by
  intro s v rest hin
  have hcmd : targetOf s.params 0x008#32 = .reg .cmd := targetOf_regAddr s.params .cmd
  refine ⟨fun hi => ?_, fun hb => ?_⟩
  · rw [step_write_idle hi rfl hin, hcmd, ← clearsImageValid_eq, ← clearsHistValid_eq]
    rfl
  · rw [step_write_busy hb rfl hin, hcmd]
    rfl

/-! ## Addresses that name nothing -/

section
variable {p : Params} {a : Word}

/-- Between the last register and the first window. -/
theorem targetOf_below_windows (h1 : 0x088 ≤ a.toNat) (h2 : a.toNat < 0x10000000) : targetOf p a = .unmapped := by
  simp [targetOf, ofOffset_eq_none h1, windowOf_eq_none (.inl h2)]

/-- Past the last window. -/
theorem targetOf_above_windows (h : 0x80000000 ≤ a.toNat) : targetOf p a = .unmapped := by
  simp [targetOf, ofOffset_eq_none (show 0x088 ≤ a.toNat by omega), windowOf_eq_none (.inr h)]

/-- In the region of a window, at or beyond the capacity of its buffer. -/
theorem targetOf_beyond_capacity {w : Window} (h1 : windowBase w + windowStride w * windowCapacity p w ≤ a.toNat)
    (h2 : a.toNat < windowBase w + 0x10000000) : targetOf p a = .unmapped := by
  have hbase : 0x1000 ≤ windowBase w := by cases w <;> decide
  have hk : windowCapacity p w ≤ (a.toNat - windowBase w) / windowStride w :=
    (Nat.le_div_iff_mul_le (windowStride_pos w)).2 (by rw [Nat.mul_comm]; omega)
  rw [targetOf, if_neg (by omega), windowOf_eq_some (by omega) h2]
  exact if_neg (by omega)

end

theorem readWord_unmapped {s : State} {a : Word} (h : targetOf s.params a = .unmapped) : readWord a s = 0 := by
  rw [readWord, h]

/-- Settles O10: each address listed names nothing, where a read answers 0 and a write is ignored. -/
theorem unmappedAddressesReadZeroAndIgnoreWrites : Obligations.UnmappedAddressesReadZeroAndIgnoreWrites := by
  intro s a v rest hi hal haddr
  have hun : targetOf s.params a = .unmapped := by
    rcases haddr with rfl | rfl | ⟨hge, hlt⟩ | hge | ⟨w, hge, hlt⟩
    · rfl
    · rfl
    · exact targetOf_below_windows hge hlt
    · exact targetOf_above_windows hge
    · exact targetOf_beyond_capacity hge hlt
  refine ⟨fun hin => ?_, fun hin => ?_⟩
  · rw [step_read_idle hi ((aligned_iff a).2 hal) hin, readWord_unmapped hun]
    rfl
  · rw [step_write_idle hi ((aligned_iff a).2 hal) hin, hun]
    rfl

/-! ## The elements of SAMP -/

@[simp] theorem samp_writeElement (k : Nat) (v : Word) (s : State) :
    (writeElement .samp k v s).samp k = (v.setWidth s.params.sampleBits).toInt := getD_read?_write_same _ k _ _

/-- What a sample just written reads as (R64). -/
theorem readWord_write_samp {s : State} {k : Nat} {v : Word} (hp : s.params.Legal) (hk : k < s.params.maxSamples) :
    readWord (elementAddr .samp k 0) (writeElement .samp k v s) =
      (v.setWidth s.params.sampleBits).signExtend 32 := by
  rw [readWord_writeElement (w := .samp) hp hk, readElement, samp_writeElement, sampleWord, BitVec.signExtend]

/-- Settles O13: the step is `readElement` or `writeElement` of the sample, which reads back sign-extended. -/
theorem sampleWriteThenRead : Obligations.SampleWriteThenRead := by
  intro s k v rest hp hi hk
  have hp' : ({ s with inputs := rest } : State).params.Legal := hp
  refine ⟨fun hin => ?_, fun hin => ⟨_, step_write_element (w := .samp) hp hi hk hin, readWord_write_samp hp' hk,
    samp_writeElement k v _, fun j hj => getD_read?_write_other _ _ _ hj, rfl, rfl, rfl⟩⟩
  rw [step_read_element (w := .samp) hp hi hk hin, readElement, sampleWord]

/-! ## The records of XING, HIST and BLK -/

/-- A 64-bit value is its two words (R67). -/
theorem toNat_words (x : BitVec 64) :
    (x.extractLsb' 0 32).toNat + 2 ^ 32 * (x.extractLsb' 32 32).toNat = x.toNat := by
  simp only [BitVec.extractLsb'_toNat, Nat.shiftRight_eq_div_pow]
  omega

/-- The view saturates where the register is full (R67). -/
theorem bucketView_toNat (e : HistEntry) : (bucketView e).toNat = min e.bucket (2 ^ 64 - 1) := by
  rw [bucketView, BitVec.toNat_ofNat]
  exact Nat.mod_eq_of_lt (by omega)

/-- The checksum word of a block entry as a number: its fields stand as those of HDR_CKSUM do (R41, R60). -/
theorem BlockEntry.checkWord_toNat (b : BlockEntry) :
    b.checkWord.toNat = b.computed.toNat + 256 * b.stored.toNat + 65536 * b.ok.toNat :=
  HdrCksum.toWord_toNat { computed := b.computed, stored := b.stored, ok := b.ok }

theorem boolWord_eq_ofNat (b : Bool) : boolWord b = BitVec.ofNat 32 b.toNat := by cases b <;> rfl

/-- A record buffer: one whose elements have four words, which the host cannot write (R65, R67). -/
def recordWindows : List Window := [.xing, .hist, .blk]

section
variable {s : State} {w : Window} {k f : Nat} {v : Word} {rest : List Input}

theorem field_lt_stride (hw : w ∈ recordWindows) (hf : f < 4) : 4 * f < windowStride w := by
  have hstride : windowStride w = 16 := by revert w; decide
  omega

theorem readWord_record (hp : s.params.Legal) (hw : w ∈ recordWindows) (hk : k < windowCapacity s.params w)
    (hf : f < 4) : readWord (elementAddr w k f) s = readElement w k f s :=
  readWord_elementAddr hp hk (field_lt_stride hw hf)

theorem writeElement_record (hw : w ∈ recordWindows) (k : Nat) (v : Word) (s : State) : writeElement w k v s = s := by
  cases w with
  | xing | hist | blk => rfl
  | samp | sym | bit | byte => exact absurd hw (by decide)

theorem step_write_record (hp : s.params.Legal) (hi : s.Idle) (hw : w ∈ recordWindows)
    (hk : k < windowCapacity s.params w) (hf : f < 4) (hin : s.inputs = .write (elementAddr w k f) v :: rest) :
    step s = .next { s with inputs := rest } := by
  rw [step_write_idle hi (aligned_elementAddr hp hk (field_lt_stride hw hf)) hin,
    targetOf_elementAddr hp hk (field_lt_stride hw hf), writeIdle, writeElement_record hw]

end

/-- Settles O15: each word is read through its element, and no write reaches a record. -/
theorem recordWordsAreReadOnlyViews : Obligations.RecordWordsAreReadOnlyViews := by
  intro s k f v rest hp hi hf
  have hxing : Window.xing ∈ recordWindows := by decide
  have hhist : Window.hist ∈ recordWindows := by decide
  have hblk : Window.blk ∈ recordWindows := by decide
  refine ⟨fun hk => ⟨?_, ?_, ?_, ?_⟩, fun hk => ⟨?_, ?_, ?_, ?_⟩, fun w hw hk => ⟨fun hin => ?_, fun hin => ?_⟩⟩
  · rw [readWord_record hp hxing hk hf]
    match f with
    | 0 | 1 | 2 => rfl
    | _ + 3 => exact boolWord_eq_ofNat _
  · rw [readWord_record hp hhist hk (by decide), readWord_record hp hhist hk (by decide), ← bucketView_toNat]
    exact toNat_words _
  · exact readWord_record hp hhist hk (by decide)
  · exact readWord_record hp hhist hk (by decide)
  · exact readWord_record hp hblk hk (by decide)
  · exact readWord_record hp hblk hk (by decide)
  · rw [readWord_record hp hblk hk (by decide)]
    exact (s.blk k).checkWord_toNat
  · exact readWord_record hp hblk hk (by decide)
  · exact step_read_idle hi (aligned_elementAddr hp hk (field_lt_stride hw hf)) hin
  · exact step_write_record hp hi hw hk hf hin

end Sys2Proof.Machine
end

section
/-! SUPPORT. The decoder and the encoder of command words (R76 to R80): each inverse to the other on the commands that
stand for words. -/

namespace Sys2Proof

/-! ## The two halves of the decoder -/

theorem wellFormed_illegal_iff (w : Word) : WellFormed (.illegal w) ↔ zeroField w ≠ 0#28 := bne_iff_ne

/-- A word with ZERO not zero is an illegal word (R79). -/
theorem decodeCmd_of_zeroField_ne {w : Word} (h : zeroField w ≠ 0#28) : decodeCmd w = .illegal w := if_pos h

/-- A word with ZERO zero is its opcode, zero-extended (R76). -/
theorem eq_setWidth_opcodeField {w : Word} (h : zeroField w = 0#28) : w = (opcodeField w).setWidth 32 := by
  have hz : w.toNat / 16 % 2 ^ 28 = 0 := by
    simpa [zeroField, BitVec.extractLsb'_toNat, Nat.shiftRight_eq_div_pow] using congrArg BitVec.toNat h
  apply BitVec.eq_of_toNat_eq
  simp only [opcodeField, BitVec.toNat_setWidth, BitVec.extractLsb'_toNat, Nat.shiftRight_zero]
  omega

/-- The illegal words are those from 16 on (R79). -/
theorem zeroField_ne_iff (w : Word) : zeroField w ≠ 0#28 ↔ 16 ≤ w.toNat := by
  have hz : (zeroField w).toNat = w.toNat / 16 % 2 ^ 28 := by
    rw [zeroField, BitVec.extractLsb'_toNat, Nat.shiftRight_eq_div_pow]
  rw [Ne, ← BitVec.toNat_inj, hz, BitVec.toNat_ofNat]
  omega

/-- The sixteen rows of the opcode table, each read and written back (R78, R80). -/
theorem decodeCmd_opcode (c : BitVec 4) :
    WellFormed (decodeCmd (c.setWidth 32)) ∧ encodeCmd (decodeCmd (c.setWidth 32)) = c.setWidth 32 := by
  revert c
  decide

/-! ## The two directions -/

/-- Every command is read back from its word. -/
theorem decodeCmd_encodeCmd (i : Instr) (h : WellFormed i) : decodeCmd (encodeCmd i) = i := by
  cases i with
  | illegal w => exact decodeCmd_of_zeroField_ne ((wellFormed_illegal_iff w).1 h)
  | nop | decode | extract | classify | bitdec | frame | assemble | reserved7 | reserved8 | reserved9 | reservedA
  | reservedB | reservedC | reservedD | reservedE | reset => rfl

/-- Every word is read as a command, and is that command's word. -/
theorem encodeCmd_decodeCmd (w : Word) : WellFormed (decodeCmd w) ∧ encodeCmd (decodeCmd w) = w := by
  by_cases h : zeroField w = 0#28
  · rw [eq_setWidth_opcodeField h]
    exact decodeCmd_opcode _
  · rw [decodeCmd_of_zeroField_ne h]
    exact ⟨(wellFormed_illegal_iff w).2 h, rfl⟩

/-- The illegal command is read from the illegal words only: it would not be well-formed from another. -/
theorem decodeCmd_eq_illegal_iff (w : Word) : decodeCmd w = .illegal w ↔ zeroField w ≠ 0#28 :=
  ⟨fun h => (wellFormed_illegal_iff w).1 (h ▸ (encodeCmd_decodeCmd w).1), decodeCmd_of_zeroField_ne⟩

/-- Settles O2: a word splits into its opcode, of which there are sixteen, and the field that tells the illegal words
apart. -/
theorem decodeAndEncodeAgree : Obligations.DecodeAndEncodeAgree :=
  ⟨decodeCmd_encodeCmd, encodeCmd_decodeCmd,
    fun w => (zeroField_ne_iff w).symm.trans (decodeCmd_eq_illegal_iff w).symm⟩

/-- Settles O1: each tabled word is the word of its command, from which the command is read back. -/
theorem commandWordsDecodeAsTabled : Obligations.CommandWordsDecodeAsTabled :=
  ⟨⟨decodeCmd_encodeCmd .nop rfl, decodeCmd_encodeCmd .decode rfl, decodeCmd_encodeCmd .extract rfl,
      decodeCmd_encodeCmd .classify rfl, decodeCmd_encodeCmd .bitdec rfl, decodeCmd_encodeCmd .frame rfl,
      decodeCmd_encodeCmd .assemble rfl, decodeCmd_encodeCmd .reset rfl⟩,
    ⟨decodeCmd_encodeCmd .reserved7 rfl, decodeCmd_encodeCmd .reservedE rfl⟩,
    decodeCmd_encodeCmd (.illegal 0x17#32) rfl⟩

end Sys2Proof
end

section
/-! SUPPORT. Commands that end without an effect of their own (R144, R151), and the errors of BITDEC (R108, R116). -/

namespace Sys2Proof.Machine

/-! ## NOP and the illegal words (R144, R151) -/

theorem exec_nop (s : State) : exec .nop s = .next (Stage.done s).complete := rfl

/-- Every reserved opcode and every illegal word is performed as ILLEGAL_COMMAND (R80, R151). -/
theorem exec_illegal {i : Instr} {w : Word}
    (hi : i ∈ [.reserved7, .reserved8, .reserved9, .reservedA, .reservedB, .reservedC, .reservedD, .reservedE,
      Instr.illegal w]) (s : State) : exec i s = .next (Stage.raised s .illegalCommand).complete := by
  simp only [List.mem_cons, List.not_mem_nil, or_false] at hi
  rcases hi with rfl | rfl | rfl | rfl | rfl | rfl | rfl | rfl | rfl <;> rfl

/-- Settles O20: NOP is a completion and nothing else, an illegal word the completion with ILLEGAL_COMMAND, which reports
no detail. -/
theorem nopAndIllegalCommandResults : Obligations.NopAndIllegalCommandResults := by
  intro s
  refine ⟨?_, fun i w hi => ?_⟩
  · rw [exec_nop, complete_done]
  · rw [exec_illegal hi, complete_raised, FatalError.code_illegalCommand, FatalError.report_illegalCommand]

/-! ## The context of INVALID_SEQUENCE (R82) -/

/-- A context as a number: bit `m` is 1 when symbol `m` is High. -/
def contextValue (ctx : List Tone) : Nat :=
  ((List.range ctx.length).map (fun m => if ctx[m]? = some .high then 2 ^ m else 0)).sum

theorem contextValue_cons (t : Tone) (ctx : List Tone) :
    contextValue (t :: ctx) = t.toBit.toNat + 2 * contextValue ctx := by
  have hhead : (if t = .high then 1 else 0) = t.toBit.toNat := by cases t <;> rfl
  simp [contextValue, List.range_succ_eq_map, Function.comp_def, pow_succ', ← List.sum_map_mul_left, hhead]

/-- The shifted context and its new lowest bit share no bit, so they add up. -/
theorem packContext_cons (t : Tone) (ctx : List Tone) :
    packContext (t :: ctx) = BitVec.ofNat 16 t.toBit.toNat + 2#16 * packContext ctx := by
  have hdisjoint : packContext ctx <<< 1 &&& (BitVec.ofBool t.toBit).setWidth 16 = 0#16 := by
    ext i hi
    cases i <;> simp
  have hbit : (BitVec.ofBool t.toBit).setWidth 16 = BitVec.ofNat 16 t.toBit.toNat := by cases t <;> rfl
  calc packContext (t :: ctx)
      = packContext ctx <<< 1 + (BitVec.ofBool t.toBit).setWidth 16 :=
        (BitVec.add_eq_or_of_and_eq_zero _ _ hdisjoint).symm
    _ = BitVec.ofNat 16 t.toBit.toNat + 2#16 * packContext ctx := by
        rw [hbit, add_comm, BitVec.shiftLeft_eq_mul_twoPow, mul_comm]
        rfl

theorem packContext_eq_ofNat (ctx : List Tone) : packContext ctx = BitVec.ofNat 16 (contextValue ctx) := by
  induction ctx with
  | nil => rfl
  | cons t ctx ih => rw [packContext_cons, contextValue_cons, ih, BitVec.ofNat_add, BitVec.ofNat_mul]

/-! ## The errors of BITDEC (R108, R116, R118) -/

theorem writePrefix_nil {α : Type} (b : Buf α) : Buf.writePrefix b [] = b := by
  cases b <;> simp [Buf.writePrefix, Buf.entriesFrom, seek_cons]

theorem exec_bitdec (s : State) : exec .bitdec s = .next (bitdecBody s).complete := rfl

/-- BAUD stands for a baud rate exactly at its codes 1 and 2 (R37). -/
theorem ofCode_eq_none_iff (c : BitVec 2) : Baud.ofCode c = none ↔ c ≠ 1 ∧ c ≠ 2 := by
  unfold Baud.ofCode
  split_ifs with h1 h2
  · simp [h1]
  · simp [h2]
  · exact ⟨fun _ => ⟨h1, h2⟩, fun _ => rfl⟩

theorem bitdecBody_unknown_baud {s : State} (hb : Baud.ofCode s.regs.baud = none) :
    bitdecBody s = .raised (s.setDecoded 0 0) (.badConfig 3) := by
  rw [bitdecBody, hb]

theorem bitdecBody_overfull {s : State} (hb : Baud.ofCode s.regs.baud ≠ none)
    (h : s.params.maxSamples < s.regs.symCount.toNat) :
    bitdecBody s = .raised (s.setDecoded 0 0) (.badConfig 4) := by
  rcases bitdecBody_cases s with ⟨hnone, _⟩ | ⟨_, _, ⟨_, e⟩ | ⟨hle, _⟩⟩
  · exact absurd hnone hb
  · exact e
  · omega

theorem bitdecBody_decodes {s : State} {b : Baud} (hb : s.regs.baud = b.code)
    (h : s.regs.symCount.toNat ≤ s.params.maxSamples) :
    bitdecBody s = decodeStage b (s.syms s.regs.symCount.toNat) s := by
  rcases bitdecBody_cases s with ⟨hc, _⟩ | ⟨b', hc, ⟨hgt, _⟩ | ⟨_, e⟩⟩ <;> rw [hb, ofCode_code] at hc <;> cases hc
  · omega
  · exact e

theorem decodeStage_malformed {b : Baud} {syms : List Tone} {bits : List Bool} {p : Nat} {ctx : List Tone}
    (h : bitDecode b syms = (bits, some (p, ctx))) (s : State) :
    decodeStage b syms s =
      .raised ((s.setMem { s.mem with bit := Buf.writePrefix s.mem.bit bits }).setDecoded (preambleLength syms) 0)
        (.invalidSequence p ctx) := by
  simp only [decodeStage, h]

/-- Settles O40: the two checks in their order, which write no bit and report no context, and then the first bad token. -/
theorem bitdecErrors : Obligations.BitdecErrors := by
  intro s syms raised
  refine ⟨fun h1 h2 => ?_, fun hb hgt => ?_, fun b bits p ctx hb hfit hd => ?_⟩
  · rw [exec_bitdec, bitdecBody_unknown_baud ((ofCode_eq_none_iff _).2 ⟨h1, h2⟩), complete_raised]
    simp only [raised, writePrefix_nil]
    rfl
  · have hknown : Baud.ofCode s.regs.baud ≠ none := fun h =>
      have ⟨h1, h2⟩ := (ofCode_eq_none_iff _).1 h
      hb.elim h1 h2
    rw [exec_bitdec, bitdecBody_overfull hknown hgt, complete_raised]
    simp only [raised, writePrefix_nil]
    rfl
  · have hcode : s.regs.baud = b.code := by cases b <;> exact hb
    rw [exec_bitdec, bitdecBody_decodes hcode hfit, syms_eq, decodeStage_malformed hd, complete_raised,
      FatalError.report_invalidSequence, packContext_eq_ofNat]
    rfl

end Sys2Proof.Machine
end

section
/-! SUPPORT. The pure functions of EXTRACT: what trimming keeps (R87), which pairs of samples are crossings (R88 to R91),
and where the crossings lie (R92, R93). -/

namespace Sys2Proof.Machine

/-! ## Trimming (R87) -/

theorem nearSilent_iff (threshold : Nat) (v : Int) : nearSilent threshold v = true ↔ v.natAbs < threshold := by
  simp [nearSilent]

theorem nearSilent_eq_false_iff (threshold : Nat) (v : Int) : nearSilent threshold v = false ↔ threshold ≤ v.natAbs := by
  simp [nearSilent]

/-- `trim` with its two ends named: what `dropWhile` and `rdropWhile` leave. -/
theorem trim_eq (s : List Int) (threshold : Nat) :
    trim s threshold =
      if s.dropWhile (nearSilent threshold) = [] then (0, [])
      else (s.length - (s.dropWhile (nearSilent threshold)).length,
        (s.dropWhile (nearSilent threshold)).rdropWhile (nearSilent threshold)) := by
  unfold trim
  cases s.dropWhile (nearSilent threshold) <;> rfl

/-- `dropWhile` drops up to the first element that fails the test. -/
theorem dropWhile_eq_drop_of_first {α : Type} {p : α → Bool} {l : List α} {a : Nat} {u : α} (hu : l[a]? = some u)
    (hpu : p u = false) (hbefore : ∀ k x, l[k]? = some x → k < a → p x = true) : l.dropWhile p = l.drop a := by
  induction l generalizing a with
  | nil => simp at hu
  | cons y l ih =>
    cases a with
    | zero =>
      cases hu
      simp [hpu]
    | succ a =>
      have hy : p y = true := hbefore 0 y rfl (Nat.succ_pos a)
      rw [List.dropWhile_cons_of_pos hy, List.drop_succ_cons]
      exact ih hu fun k x hx hk => hbefore (k + 1) x hx (Nat.succ_lt_succ hk)

/-- `rdropWhile` keeps up to the last element that fails the test. -/
theorem rdropWhile_eq_take_of_last {α : Type} {p : α → Bool} {l : List α} {b : Nat} {v : α} (hv : l[b]? = some v)
    (hpv : p v = false) (hafter : ∀ k x, l[k]? = some x → b < k → p x = true) :
    l.rdropWhile p = l.take (b + 1) := by
  obtain ⟨hb, -⟩ := List.getElem?_eq_some_iff.1 hv
  have hlast : l.reverse[l.length - 1 - b]? = some v := by
    rw [List.getElem?_reverse (by omega), ← hv]
    congr 1
    omega
  have hbefore : ∀ k x, l.reverse[k]? = some x → k < l.length - 1 - b → p x = true := fun k x hx hk => by
    rw [List.getElem?_reverse (by omega)] at hx
    exact hafter _ x hx (by omega)
  rw [List.rdropWhile, dropWhile_eq_drop_of_first hlast hpv hbefore, List.drop_reverse, List.reverse_reverse]
  congr 1
  omega

/-- Settles O21: the first loud sample is where `dropWhile` stops from the left, the last one where it stops from the
right. -/
theorem trimKeepsFromFirstToLastLoudSample : Obligations.TrimKeepsFromFirstToLastLoudSample := by
  intro s threshold
  refine ⟨fun hsilent => ?_, fun a b u v hab hu hv hloudu hloudv hrest => ?_⟩
  · have hnone : s.dropWhile (nearSilent threshold) = [] :=
      List.dropWhile_eq_nil_iff.2 fun x hx => (nearSilent_iff threshold x).2 (hsilent x hx)
    rw [trim_eq, if_pos hnone]
  · obtain ⟨ha, -⟩ := List.getElem?_eq_some_iff.1 hu
    have hleft : s.dropWhile (nearSilent threshold) = s.drop a :=
      dropWhile_eq_drop_of_first hu ((nearSilent_eq_false_iff threshold u).2 hloudu) fun k x hx hk =>
        (nearSilent_iff threshold x).2 (hrest k x hx (.inl hk))
    have hlast : (s.drop a)[b - a]? = some v := by
      rw [List.getElem?_drop, Nat.add_sub_cancel' hab, hv]
    have hright : (s.drop a).rdropWhile (nearSilent threshold) = (s.drop a).take (b - a + 1) :=
      rdropWhile_eq_take_of_last hlast ((nearSilent_eq_false_iff threshold v).2 hloudv) fun k x hx hk => by
        rw [List.getElem?_drop] at hx
        exact (nearSilent_iff threshold x).2 (hrest (a + k) x hx (.inr (by omega)))
    have hstart : s.length - (s.drop a).length = a := by
      rw [List.length_drop]
      omega
    have hsome : s.drop a ≠ [] := by simpa using ha
    rw [trim_eq, hleft, if_neg hsome, hright, hstart, Nat.sub_add_comm hab]

/-! ## The crossings of a sequence (R88 to R91) -/

/-- The record of the pair at `k` of a sequence whose first sample has index `i`, if there is a crossing between the two. -/
def crossingAt (i : Nat) (t : List Int) (k : Nat) : Option Crossing :=
  if signChange (t.getD k 0) (t.getD (k + 1) 0) then some (crossingRecord (i + k) (t.getD k 0) (t.getD (k + 1) 0))
  else none

theorem crossingAt_cons_succ (i : Nat) (a : Int) (t : List Int) (k : Nat) :
    crossingAt i (a :: t) (k + 1) = crossingAt (i + 1) t k := by
  simp only [crossingAt, List.getD_cons_succ, Nat.add_right_comm i 1 k, Nat.add_assoc]

theorem crossingsFrom_cons_cons (i : Nat) (a b : Int) (rest : List Int) :
    crossingsFrom i (a :: b :: rest) =
      (crossingAt i (a :: b :: rest) 0).toList ++ crossingsFrom (i + 1) (b :: rest) := by
  rw [crossingsFrom]
  cases h : signChange a b <;> simp [crossingAt, h]

theorem crossingsFrom_eq_filterMap (i : Nat) (t : List Int) :
    crossingsFrom i t = (List.range (t.length - 1)).filterMap (crossingAt i t) := by
  induction t generalizing i with
  | nil => rfl
  | cons a t ih =>
    cases t with
    | nil => rfl
    | cons b rest =>
      have htail : crossingAt i (a :: b :: rest) ∘ Nat.succ = crossingAt (i + 1) (b :: rest) :=
        funext fun k => crossingAt_cons_succ i a (b :: rest) k
      rw [crossingsFrom_cons_cons, ih (i + 1)]
      simp only [List.length_cons, Nat.add_sub_cancel, List.range_succ_eq_map, List.filterMap_cons,
        List.filterMap_map, htail]
      cases crossingAt i (a :: b :: rest) 0 <;> rfl

theorem signChange_iff (a b : Int) : signChange a b = true ↔ (a < 0) ≠ (b < 0) := by
  simp [signChange]

/-- Settles O22: by induction on the sequence, the crossings of a sequence from any first index on. -/
theorem crossingsAreTheSignChanges : Obligations.CrossingsAreTheSignChanges := by
  intro t
  rw [crossings, crossingsFrom_eq_filterMap]
  refine congrArg (List.filterMap · _) (funext fun k => ?_)
  simp only [crossingAt, crossingRecord, signChange_iff, Nat.zero_add]

/-- The crossings of a sequence come with rising indices (R91). -/
theorem crossings_pairwise_index (t : List Int) : (crossings t).Pairwise (fun c d => c.index < d.index) := by
  rw [crossings, crossingsFrom_eq_filterMap]
  refine List.pairwise_lt_range.filterMap _ fun j k hjk c hc d hd => ?_
  simp only [crossingAt, Option.ite_none_right_eq_some, Option.some.injEq] at hc hd
  obtain ⟨-, rfl⟩ := hc
  obtain ⟨-, rfl⟩ := hd
  simpa [crossingRecord] using hjk

/-- The samples a crossing lies between, one negative and the other not (R88). -/
structure CrossingOf (t : List Int) (c : Crossing) (a b : Int) : Prop where
  left : t[c.index]? = some a
  right : t[c.index + 1]? = some b
  record : c = crossingRecord c.index a b
  signs : a < 0 ∧ 0 ≤ b ∨ 0 ≤ a ∧ b < 0

theorem exists_crossingOf {t : List Int} {c : Crossing} (h : c ∈ crossings t) : ∃ a b, CrossingOf t c a b := by
  obtain ⟨k, a, b, ha, hb, hsign, rfl⟩ := mem_crossingsFrom h
  rw [Nat.zero_add]
  refine ⟨a, b, ha, hb, rfl, ?_⟩
  rw [signChange_iff, ne_eq, eq_iff_iff] at hsign
  omega

/-! ## Positions (R90, R92, R93) -/

section
variable {c : Crossing}

theorem index_le_pos (c : Crossing) : (c.index : ℚ) ≤ c.pos :=
  le_add_of_nonneg_right (by positivity)

theorem pos_eq_index_iff (hq : 0 < c.q) : c.pos = c.index ↔ c.p = 0 := by
  have hq' : (c.q : ℚ) ≠ 0 := by positivity
  simp [Crossing.pos, hq']

theorem pos_le_index_add_one (hpq : c.p ≤ c.q) : c.pos ≤ c.index + 1 :=
  add_le_add_right (div_le_one_of_le₀ (by exact_mod_cast hpq) (by positivity)) _

theorem pos_eq_index_add_one_iff (hq : 0 < c.q) : c.pos = c.index + 1 ↔ c.p = c.q := by
  have hq' : (c.q : ℚ) ≠ 0 := by positivity
  rw [Crossing.pos, add_right_inj, div_eq_one_iff_eq hq', Nat.cast_inj]

end

namespace CrossingOf
variable {t : List Int} {c : Crossing} {a b : Int}

theorem p_eq (h : CrossingOf t c a b) : c.p = a.natAbs := by rw [h.record]; rfl

theorem q_eq (h : CrossingOf t c a b) : c.q = a.natAbs + b.natAbs := by rw [h.record]; rfl

theorem rising_iff (h : CrossingOf t c a b) : c.rising = true ↔ a < 0 := by rw [h.record]; simp [crossingRecord]

theorem p_le_q (h : CrossingOf t c a b) : c.p ≤ c.q := by rw [h.p_eq, h.q_eq]; omega

theorem q_pos (h : CrossingOf t c a b) : 0 < c.q := by
  have := h.signs
  rw [h.q_eq]
  omega

/-- A crossing lies at its first sample exactly when that sample is 0 (R92). -/
theorem pos_eq_index_iff_left (h : CrossingOf t c a b) : c.pos = c.index ↔ a = 0 := by
  rw [pos_eq_index_iff h.q_pos, h.p_eq, Int.natAbs_eq_zero]

/-- A crossing lies at its second sample exactly when that sample is 0 (R92). -/
theorem pos_eq_index_add_one_iff_right (h : CrossingOf t c a b) : c.pos = c.index + 1 ↔ b = 0 := by
  rw [pos_eq_index_add_one_iff h.q_pos, h.p_eq, h.q_eq]
  omega

end CrossingOf

/-- A rising crossing lies in (i, i + 1], a falling one in [i, i + 1) (R92). -/
theorem crossing_pos_bounds {t : List Int} {c : Crossing} (hc : c ∈ crossings t) :
    (c.rising = true → (c.index : ℚ) < c.pos ∧ c.pos ≤ c.index + 1 ∧
      (c.pos = c.index + 1 ↔ t[c.index + 1]? = some 0)) ∧
    (c.rising = false → (c.index : ℚ) ≤ c.pos ∧ c.pos < c.index + 1 ∧ (c.pos = c.index ↔ t[c.index]? = some 0)) := by
  obtain ⟨a, b, h⟩ := exists_crossingOf hc
  have hle := pos_le_index_add_one h.p_le_q
  have hsigns := h.signs
  rw [h.left, h.right, Option.some.injEq, Option.some.injEq]
  refine ⟨fun hrising => ?_, fun hfalling => ?_⟩
  · have ha : a ≠ 0 := (h.rising_iff.1 hrising).ne
    exact ⟨(index_le_pos c).lt_of_ne' (mt h.pos_eq_index_iff_left.1 ha), hle, h.pos_eq_index_add_one_iff_right⟩
  · have hb : b ≠ 0 := by
      rw [← Bool.not_eq_true, h.rising_iff] at hfalling
      omega
    exact ⟨index_le_pos c, hle.lt_of_ne (mt h.pos_eq_index_add_one_iff_right.1 hb), h.pos_eq_index_iff_left⟩

/-- Of two crossings, the one of the later pair of samples is not before the other, and at the same position exactly when
they touch in the sample between neighbouring pairs: the first is rising to 0, the second falling from it (R93). -/
theorem crossing_pos_le_and_eq_iff {t : List Int} {c1 c2 : Crossing} (h1 : c1 ∈ crossings t) (h2 : c2 ∈ crossings t)
    (hlt : c1.index < c2.index) :
    c1.pos ≤ c2.pos ∧
    (c1.pos = c2.pos ↔ c2.index = c1.index + 1 ∧
      ∃ a b, a < 0 ∧ b < 0 ∧ t[c1.index]? = some a ∧ t[c1.index + 1]? = some 0 ∧ t[c1.index + 2]? = some b) := by
  obtain ⟨a1, b1, hc1⟩ := exists_crossingOf h1
  obtain ⟨a2, b2, hc2⟩ := exists_crossingOf h2
  have hle1 := pos_le_index_add_one hc1.p_le_q
  have hindex : (c1.index : ℚ) + 1 ≤ c2.index := by exact_mod_cast hlt
  have hle2 := index_le_pos c2
  refine ⟨hle1.trans (hindex.trans hle2), fun heq => ?_, ?_⟩
  · have hb1 : b1 = 0 := hc1.pos_eq_index_add_one_iff_right.1 (by linarith)
    have ha2 : a2 = 0 := hc2.pos_eq_index_iff_left.1 (by linarith)
    have hnext : c2.index = c1.index + 1 := by
      have : (c2.index : ℚ) = c1.index + 1 := by linarith
      exact_mod_cast this
    have hsigns1 := hc1.signs
    have hsigns2 := hc2.signs
    exact ⟨hnext, a1, b2, by omega, by omega, hc1.left, hb1 ▸ hc1.right, by rw [← hc2.right, hnext]⟩
  · rintro ⟨hnext, a, b, -, -, -, hzero, -⟩
    have hb1 : b1 = 0 := Option.some.inj (hc1.right.symm.trans hzero)
    have ha2 : a2 = 0 := Option.some.inj ((hnext ▸ hc2.left).symm.trans hzero)
    rw [hc1.pos_eq_index_add_one_iff_right.2 hb1, hc2.pos_eq_index_iff_left.2 ha2, hnext]
    push_cast
    rfl

/-- Settles O23: consecutive crossings come from pairs of samples at rising indices, and each lies between its two
samples. -/
theorem crossingPositionsNeverDecrease : Obligations.CrossingPositionsNeverDecrease := by
  intro t
  refine ⟨fun c hc => crossing_pos_bounds hc, fun k c1 c2 h1 h2 => ?_⟩
  obtain ⟨hk1, e1⟩ := List.getElem?_eq_some_iff.1 h1
  obtain ⟨hk2, e2⟩ := List.getElem?_eq_some_iff.1 h2
  have hlt : c1.index < c2.index := by
    rw [← e1, ← e2]
    exact List.pairwise_iff_getElem.1 (crossings_pairwise_index t) k (k + 1) hk1 hk2 (Nat.lt_succ_self k)
  exact crossing_pos_le_and_eq_iff (List.mem_of_getElem? h1) (List.mem_of_getElem? h2) hlt

end Sys2Proof.Machine
end

section
/-! SUPPORT. EXTRACT over whole states: its result, its errors and its repetition (R85, R86, R95, R96). -/

namespace Sys2Proof.Machine

/-! ## The three ways through EXTRACT -/

theorem exec_extract (s : State) : exec .extract s = .next (extractBody s).complete := rfl

/-- The state EXTRACT leaves after an error (R96, R152): the report and counts of 0. -/
def State.extractFailed (s : State) (code : BitVec 4) (index : Word) : State :=
  { s with
    pending := none
    regs := { s.regs with
      status := { s.regs.status with busy := false, done := true, err := true, errCode := code }
      errIndex := index, errFreq := 0, errCtx := 0, errCtxLen := 0, trimStart := 0, trimLen := 0, xingCount := 0 } }

/-- The state EXTRACT leaves where it succeeds (R96): the trimming, the crossings and their number. -/
def State.extracted (s : State) (kept : Nat × List Int) : State :=
  { s with
    pending := none
    mem := { s.mem with xing := Buf.writePrefix s.mem.xing (crossings kept.2) }
    regs := { s.regs with
      status := { s.regs.status with busy := false, done := true }
      trimStart := natWord kept.1, trimLen := natWord kept.2.length, xingCount := natWord (crossings kept.2).length } }

/-- The input of EXTRACT, trimmed (R87, R96). -/
def State.trimmedInput (s : State) : Nat × List Int :=
  trim (s.samples s.regs.sampleCount.toNat) s.regs.silenceThr.toNat

theorem exec_extract_unsupported {s : State} (h : s.regs.format.acceptable = false) :
    exec .extract s = .next (s.extractFailed 1 0) := by
  rcases extractBody_cases s with ⟨_, e⟩ | ⟨hok, _⟩ | ⟨hok, _⟩
  · rw [exec_extract, e]; rfl
  · rw [h] at hok; cases hok
  · rw [h] at hok; cases hok

theorem exec_extract_overfull {s : State} (h : s.regs.format.acceptable = true)
    (hgt : s.params.maxSamples < s.regs.sampleCount.toNat) : exec .extract s = .next (s.extractFailed 8 1) := by
  rcases extractBody_cases s with ⟨hbad, _⟩ | ⟨_, _, e⟩ | ⟨_, hle, _⟩
  · rw [h] at hbad; cases hbad
  · rw [exec_extract, e]; rfl
  · omega

theorem exec_extract_fits {s : State} (h : s.regs.format.acceptable = true)
    (hle : s.regs.sampleCount.toNat ≤ s.params.maxSamples) :
    exec .extract s = .next (s.extracted s.trimmedInput) := by
  rcases extractBody_cases s with ⟨hbad, _⟩ | ⟨_, hgt, _⟩ | ⟨_, _, kept, hkept, e⟩
  · rw [h] at hbad; cases hbad
  · omega
  · rw [exec_extract, e, hkept]; rfl

/-- Settles O24: with both checks passed, only the last way is left. -/
theorem extractResult : Obligations.ExtractResult := by
  intro s hchannels hcompressed hle
  rw [exec_extract_fits ((acceptable_iff _).2 ⟨hchannels, hcompressed⟩) hle, ← samples_eq]
  rfl

/-- Settles O25: the two checks, the format first. -/
theorem extractErrors : Obligations.ExtractErrors := by
  intro s raised
  refine ⟨fun hbad => ?_, fun hchannels hcompressed hgt => ?_⟩
  · have hformat : s.regs.format.acceptable = false := by
      rw [← Bool.not_eq_true, acceptable_iff]
      rintro ⟨hchannels, hcompressed⟩
      simp [hchannels, hcompressed] at hbad
    exact exec_extract_unsupported hformat
  · exact exec_extract_overfull ((acceptable_iff _).2 ⟨hchannels, hcompressed⟩) hgt

/-! ## EXTRACT again on its own result (R95) -/

/-- Nothing of a sequence written from element `k` on is left from the element past its end on. -/
theorem seek_entriesFrom_append {α : Type} (k : Nat) (vs : List α) (b : Buf α) :
    Buf.seek (Buf.entriesFrom k vs ++ b) (k + vs.length) = Buf.seek b (k + vs.length) := by
  induction vs generalizing k with
  | nil => rfl
  | cons v vs ih =>
    rw [Buf.entriesFrom, List.cons_append, seek_cons, if_pos (by simp), List.length_cons, Nat.add_comm vs.length,
      ← Nat.add_assoc, ih]

/-- Writing the same sequence again changes nothing. -/
theorem writePrefix_writePrefix {α : Type} (b : Buf α) (vs : List α) :
    Buf.writePrefix (Buf.writePrefix b vs) vs = Buf.writePrefix b vs := by
  have hpast := seek_entriesFrom_append 0 vs (Buf.seek b vs.length)
  rw [Nat.zero_add, seek_seek b (Nat.le_refl _)] at hpast
  rw [Buf.writePrefix, Buf.writePrefix, hpast]

theorem extractFailed_extractFailed (s : State) (code : BitVec 4) (index : Word) :
    (s.extractFailed code index).extractFailed code index = s.extractFailed code index := rfl

theorem extracted_extracted (s : State) (kept : Nat × List Int) :
    (s.extracted kept).extracted kept = s.extracted kept := by
  simp only [State.extracted, writePrefix_writePrefix]

/-- EXTRACT does not write what it reads (R95). -/
theorem trimmedInput_extracted (s : State) (kept : Nat × List Int) :
    (s.extracted kept).trimmedInput = s.trimmedInput := rfl

/-- Settles O27: the state made takes the same way through EXTRACT, and each way writes the same values again. -/
theorem extractTwiceIsExtractOnce : Obligations.ExtractTwiceIsExtractOnce := by
  intro s t h
  cases hformat : s.regs.format.acceptable with
  | false =>
    rw [exec_extract_unsupported hformat] at h
    cases h
    rw [exec_extract_unsupported (s := s.extractFailed 1 0) hformat, extractFailed_extractFailed]
  | true =>
    rcases Nat.lt_or_ge s.params.maxSamples s.regs.sampleCount.toNat with hgt | hle
    · rw [exec_extract_overfull hformat hgt] at h
      cases h
      rw [exec_extract_overfull (s := s.extractFailed 8 1) hformat hgt, extractFailed_extractFailed]
    · rw [exec_extract_fits hformat hle] at h
      cases h
      rw [exec_extract_fits (s := s.extracted s.trimmedInput) hformat hle, trimmedInput_extracted, extracted_extracted]

end Sys2Proof.Machine
end

section
/-! SUPPORT. The pure functions of CLASSIFY: the exact estimates (R98, R99), their buckets and the histogram (R101,
R102), the baud rate (R103, R104) and the tone symbols (R105, R106). -/

namespace Sys2Proof.Machine

/-! ## Intervals and estimates (R98, R99) -/

/-- The adjacent pairs of a sequence of crossings, in order: the intervals of R98. -/
def intervals (cs : List Crossing) : List (Crossing × Crossing) := cs.zip cs.tail

@[simp] theorem intervals_cons_cons (c d : Crossing) (cs : List Crossing) :
    intervals (c :: d :: cs) = (c, d) :: intervals (d :: cs) := rfl

theorem intervals_getElem?_eq_some_iff {cs : List Crossing} {k : Nat} {c d : Crossing} :
    (intervals cs)[k]? = some (c, d) ↔ cs[k]? = some c ∧ cs[k + 1]? = some d := by
  rw [intervals, List.getElem?_zip_eq_some, List.getElem?_tail]

theorem estimateList_eq_map (r : Nat) (cs : List Crossing) :
    estimateList r cs = (intervals cs).map (fun p => estimate r p.1 p.2) := by
  induction cs with
  | nil => rfl
  | cons c cs ih =>
    cases cs with
    | nil => rfl
    | cons d rest => rw [estimateList, ih, intervals_cons_cons, List.map_cons]

/-- The index reported is where the search for an interval of length 0 ends. -/
theorem firstZeroInterval_eq_findIdx? (j : Nat) (cs : List Crossing) :
    firstZeroInterval j cs = ((intervals cs).findIdx? (fun p => intervalNum p.1 p.2 = 0)).map (j + ·) := by
  induction cs generalizing j with
  | nil => rfl
  | cons c cs ih =>
    cases cs with
    | nil => rfl
    | cons d rest =>
      rw [firstZeroInterval, ih, intervals_cons_cons, List.findIdx?_cons]
      by_cases hzero : intervalNum c d = 0
      · simp [hzero]
      · simp [hzero, Function.comp_def, Nat.add_assoc, Nat.add_comm 1]

/-- The first interval of length 0 is reported (R98). -/
theorem estimates_eq_zeroInterval {r j : Nat} {cs : List Crossing} {p : Crossing × Crossing}
    (hj : (intervals cs)[j]? = some p) (hzero : intervalNum p.1 p.2 = 0)
    (hfirst : ∀ k q, k < j → (intervals cs)[k]? = some q → intervalNum q.1 q.2 ≠ 0) :
    estimates r cs = .zeroInterval j := by
  obtain ⟨hlt, rfl⟩ := List.getElem?_eq_some_iff.1 hj
  have hfind : (intervals cs).findIdx? (fun p => intervalNum p.1 p.2 = 0) = some j :=
    List.findIdx?_eq_some_iff_getElem.2 ⟨hlt, by simpa using hzero, fun k hk => by
      simpa using hfirst k _ hk (List.getElem?_eq_getElem (hk.trans hlt))⟩
  rw [estimates, firstZeroInterval_eq_findIdx?, hfind]
  simp

/-- There are estimates exactly when no interval has length 0, one for each interval (R98). -/
theorem estimates_eq_ok_iff {r : Nat} {cs : List Crossing} {es : List Freq} :
    estimates r cs = .ok es ↔
      (∀ p ∈ intervals cs, intervalNum p.1 p.2 ≠ 0) ∧ es = (intervals cs).map (fun p => estimate r p.1 p.2) := by
  have hnone : firstZeroInterval 0 cs = none ↔ ∀ p ∈ intervals cs, intervalNum p.1 p.2 ≠ 0 := by
    simp [firstZeroInterval_eq_findIdx?]
  rw [← hnone, ← estimateList_eq_map, estimates]
  cases firstZeroInterval 0 cs <;> simp [eq_comm]

/-- N of R99 is the distance of the two crossings times Q1 × Q2. -/
theorem intervalNum_eq {c1 c2 : Crossing} (h1 : 0 < c1.q) (h2 : 0 < c2.q) (hle : c1.pos ≤ c2.pos) :
    (intervalNum c1 c2 : ℚ) = (c2.pos - c1.pos) * (c1.q * c2.q) := by
  have hq1 : (c1.q : ℚ) ≠ 0 := by positivity
  have hq2 : (c2.q : ℚ) ≠ 0 := by positivity
  have hdist : (((c2.index : Int) - c1.index) * c1.q * c2.q + c2.p * c1.q - c1.p * c2.q : Int) =
      (c2.pos - c1.pos) * (c1.q * c2.q) := by
    push_cast [Crossing.pos]
    field_simp
    ring
  have hnonneg : 0 ≤ ((c2.index : Int) - c1.index) * c1.q * c2.q + c2.p * c1.q - c1.p * c2.q := by
    rw [← Int.cast_nonneg_iff (R := ℚ), hdist]
    exact mul_nonneg (sub_nonneg.2 hle) (by positivity)
  rw [← hdist, ← Int.toNat_of_nonneg hnonneg]
  rfl

/-- An interval has length 0 exactly when its two crossings lie at one position. -/
theorem intervalNum_eq_zero_iff {c1 c2 : Crossing} (h1 : 0 < c1.q) (h2 : 0 < c2.q) (hle : c1.pos ≤ c2.pos) :
    intervalNum c1 c2 = 0 ↔ c1.pos = c2.pos := by
  have hq : (c1.q : ℚ) * c2.q ≠ 0 := by positivity
  rw [← Nat.cast_eq_zero (R := ℚ), intervalNum_eq h1 h2 hle, mul_eq_zero, or_iff_left hq, sub_eq_zero, eq_comm]

theorem estimate_den_pos {r : Nat} {c1 c2 : Crossing} (h : intervalNum c1 c2 ≠ 0) : 0 < (estimate r c1 c2).den :=
  Nat.mul_pos Nat.two_pos (Nat.pos_of_ne_zero h)

/-- An estimate is exactly R / (2 × Δ) (R98). -/
theorem estimate_value (r : Nat) {c1 c2 : Crossing} (h1 : 0 < c1.q) (h2 : 0 < c2.q) (hle : c1.pos ≤ c2.pos) :
    (estimate r c1 c2).value = (r : ℚ) / (2 * (c2.pos - c1.pos)) := by
  have hq : (c1.q : ℚ) * c2.q ≠ 0 := by positivity
  rw [Freq.value, estimate, intervalDen]
  push_cast
  rw [intervalNum_eq h1 h2 hle, ← mul_assoc 2, mul_div_mul_right _ _ hq]

/-- Every estimate is a rational with a positive denominator. -/
theorem den_pos_of_estimates {r : Nat} {cs : List Crossing} {es : List Freq} (h : estimates r cs = .ok es) {f : Freq}
    (hf : f ∈ es) : 0 < f.den := by
  obtain ⟨hpos, rfl⟩ := estimates_eq_ok_iff.1 h
  obtain ⟨p, hp, rfl⟩ := List.mem_map.1 hf
  exact estimate_den_pos (hpos p hp)

/-- Settles O28: on such records an interval counts as 0 exactly when its crossings lie at one position. -/
theorem estimatesAreExact : Obligations.EstimatesAreExact := by
  intro r cs hq hmono
  have facts {k : Nat} {c d : Crossing} (h : (intervals cs)[k]? = some (c, d)) :
      0 < c.q ∧ 0 < d.q ∧ c.pos ≤ d.pos := by
    obtain ⟨hc, hd⟩ := intervals_getElem?_eq_some_iff.1 h
    exact ⟨hq c (List.mem_of_getElem? hc), hq d (List.mem_of_getElem? hd), hmono k c d hc hd⟩
  have zero_iff {k : Nat} {c d : Crossing} (h : (intervals cs)[k]? = some (c, d)) :
      intervalNum c d = 0 ↔ c.pos = d.pos := by
    obtain ⟨hc, hd, hle⟩ := facts h
    exact intervalNum_eq_zero_iff hc hd hle
  refine ⟨fun j c1 c2 hc1 hc2 heq hfirst => ?_, fun hne => ?_⟩
  · have hj := intervals_getElem?_eq_some_iff.2 ⟨hc1, hc2⟩
    refine estimates_eq_zeroInterval hj ((zero_iff hj).2 heq) fun k ⟨d1, d2⟩ hk hd => ?_
    obtain ⟨hd1, hd2⟩ := intervals_getElem?_eq_some_iff.1 hd
    exact mt (zero_iff hd).1 (hfirst k d1 d2 hk hd1 hd2)
  · have hpos : ∀ p ∈ intervals cs, intervalNum p.1 p.2 ≠ 0 := fun ⟨d1, d2⟩ hp => by
      obtain ⟨k, hk⟩ := List.mem_iff_getElem?.1 hp
      obtain ⟨hd1, hd2⟩ := intervals_getElem?_eq_some_iff.1 hk
      exact mt (zero_iff hk).1 (hne k d1 d2 hd1 hd2)
    refine ⟨_, estimates_eq_ok_iff.2 ⟨hpos, rfl⟩, by simp [intervals], fun j f c1 c2 hf hc1 hc2 => ?_⟩
    have hj := intervals_getElem?_eq_some_iff.2 ⟨hc1, hc2⟩
    obtain ⟨hq1, hq2, hle⟩ := facts hj
    rw [List.getElem?_map, hj, Option.map_some, Option.some.injEq] at hf
    subst hf
    exact ⟨estimate_den_pos (hpos _ (List.mem_of_getElem? hj)), estimate_value r hq1 hq2 hle⟩

/-! ## Buckets (R101) -/

/-- `100 * k` is a multiple of 100 Hz nearest to an estimate, and of two at the same distance the one with `k` even. -/
def Freq.NearestHundred (f : Freq) (k : Nat) : Prop :=
  |f.value - 100 * k| ≤ 50 ∧ (|f.value - 100 * k| = 50 → k % 2 = 0)

/-- The same by cross-multiplication, over the natural numbers (R99). -/
theorem nearestHundred_iff {f : Freq} (h : 0 < f.den) (k : Nat) :
    f.NearestHundred k ↔
      (2 * (100 * f.den * k) ≤ 2 * f.num + 100 * f.den ∧ 2 * f.num ≤ 2 * (100 * f.den * k) + 100 * f.den) ∧
      (2 * (100 * f.den * k) = 2 * f.num + 100 * f.den ∨ 2 * f.num = 2 * (100 * f.den * k) + 100 * f.den →
        k % 2 = 0) := by
  have hden : (0 : ℚ) < f.den := by exact_mod_cast h
  have hdist : f.value - 100 * k = (2 * f.num - 2 * (100 * f.den * k)) / (2 * f.den) := by
    rw [Freq.value]
    field_simp
  have hwithin : |f.value - 100 * k| ≤ 50 ↔
      2 * (100 * f.den * k) ≤ 2 * f.num + 100 * f.den ∧ 2 * f.num ≤ 2 * (100 * f.den * k) + 100 * f.den := by
    rw [hdist, abs_le, le_div_iff₀ (by positivity), div_le_iff₀ (by positivity), ← Nat.cast_le (α := ℚ),
      ← Nat.cast_le (α := ℚ)]
    push_cast
    exact and_congr ⟨fun hlow => by linarith, fun hlow => by linarith⟩
      ⟨fun hhigh => by linarith, fun hhigh => by linarith⟩
  have htie : |f.value - 100 * k| = 50 ↔
      2 * (100 * f.den * k) = 2 * f.num + 100 * f.den ∨ 2 * f.num = 2 * (100 * f.den * k) + 100 * f.den := by
    rw [hdist, abs_eq (by norm_num), div_eq_iff (by positivity), div_eq_iff (by positivity), or_comm,
      ← Nat.cast_inj (R := ℚ), ← Nat.cast_inj (R := ℚ)]
    push_cast
    exact or_congr ⟨fun hlow => by linarith, fun hlow => by linarith⟩
      ⟨fun hhigh => by linarith, fun hhigh => by linarith⟩
  rw [Freq.NearestHundred, hwithin, htie]

/-- `bucket` by its quotient and remainder (R101): up past the half, down below it, to the even quotient at it. -/
theorem bucket_eq (f : Freq) :
    bucket f = 100 *
      (if 100 * f.den < 2 * (f.num % (100 * f.den)) then f.num / (100 * f.den) + 1
      else if 2 * (f.num % (100 * f.den)) < 100 * f.den then f.num / (100 * f.den)
      else if f.num / (100 * f.den) % 2 = 0 then f.num / (100 * f.den)
      else f.num / (100 * f.den) + 1) := rfl

/-- The quotient `bucket` rounds to is nearest, whichever of its ways it takes (R101). -/
theorem exists_bucket_eq {f : Freq} (h : 0 < f.den) : ∃ k, bucket f = 100 * k ∧ f.NearestHundred k := by
  have hdiv := Nat.div_add_mod f.num (100 * f.den)
  have hmod := Nat.mod_lt f.num (show 0 < 100 * f.den by omega)
  rw [bucket_eq]
  split_ifs
  · refine ⟨_, rfl, (nearestHundred_iff h _).2 ?_⟩
    rw [Nat.mul_succ]
    omega
  · exact ⟨_, rfl, (nearestHundred_iff h _).2 (by omega)⟩
  · exact ⟨_, rfl, (nearestHundred_iff h _).2 (by omega)⟩
  · refine ⟨_, rfl, (nearestHundred_iff h _).2 ?_⟩
    rw [Nat.mul_succ]
    omega

/-- Three neighbouring buckets, the outer ones with odd quotients, hold an open range: its ends are ties, which go to
the buckets outside. -/
theorem bucket_mem_three_iff {f : Freq} (h : 0 < f.den) {a : Nat} (ha : a % 2 = 1) :
    bucket f ∈ [100 * a, 100 * (a + 1), 100 * (a + 2)] ↔
      100 * (a : ℚ) - 50 < f.value ∧ f.value < 100 * (a : ℚ) + 250 := by
  obtain ⟨k, hk, hnear, htie⟩ := exists_bucket_eq h
  have hstrict : k % 2 = 1 → |f.value - 100 * k| < 50 := fun hodd => hnear.lt_of_ne (mt htie (by omega))
  have hmem : bucket f ∈ [100 * a, 100 * (a + 1), 100 * (a + 2)] ↔ k = a ∨ k = a + 1 ∨ k = a + 2 := by
    simp only [hk, List.mem_cons, List.not_mem_nil, or_false]
    omega
  rw [hmem]
  constructor
  · rintro (rfl | rfl | rfl)
    · obtain ⟨hlow, hhigh⟩ := abs_lt.1 (hstrict ha)
      constructor <;> linarith
    · obtain ⟨hlow, hhigh⟩ := abs_le.1 hnear
      push_cast at hlow hhigh
      constructor <;> linarith
    · obtain ⟨hlow, hhigh⟩ := abs_lt.1 (hstrict (by omega))
      push_cast at hlow hhigh
      constructor <;> linarith
  · rintro ⟨hlow, hhigh⟩
    obtain ⟨hlow', hhigh'⟩ := abs_le.1 hnear
    have hak : (a : ℚ) < (k + 1 : Nat) := by push_cast; linarith
    have hka : (k : ℚ) < (a + 3 : Nat) := by push_cast; linarith
    rw [Nat.cast_lt] at hak hka
    omega

/-- Settles O29: the three sets are those from the odd quotients 5, 11 and 23 on. -/
theorem bucketIsTheNearestHundred : Obligations.BucketIsTheNearestHundred := by
  intro f h
  have h600 := bucket_mem_three_iff h (a := 5) rfl
  have h1200 := bucket_mem_three_iff h (a := 11) rfl
  have h2400 := bucket_mem_three_iff h (a := 23) rfl
  norm_num only at h600 h1200 h2400
  exact ⟨exists_bucket_eq h, h600, h1200, h2400⟩

/-! ## The histogram (R102) -/

/-- The buckets of the histogram are those of the estimates in order of first occurrence: read from the end, where the
last occurrences are. -/
theorem histogram_buckets (es : List Freq) :
    (histogram es).map (fun h => h.bucket) = ((es.map bucket).reverse.dedup).reverse := by
  induction es using List.reverseRecOn with
  | nil => rfl
  | append_singleton es f ih =>
    rw [histogram_append, countBucket_buckets, ih, List.map_append, List.reverse_append]
    by_cases hold : bucket f ∈ (es.map bucket).reverse
    · rw [if_pos (by simpa using hold)]
      exact congrArg List.reverse (List.dedup_cons_of_mem hold).symm
    · rw [if_neg (by simpa using hold), ← List.reverse_cons]
      exact congrArg List.reverse (List.dedup_cons_of_notMem hold).symm

/-- Counting one more estimate raises the count of its bucket, and of no other. -/
theorem countBucket_counts {b : Nat} {h : List HistEntry} {c : Nat → Nat} (hnodup : (h.map (fun e => e.bucket)).Nodup)
    (hcounts : ∀ e ∈ h, e.count = c e.bucket) (hnew : b ∉ h.map (fun e => e.bucket) → c b = 0) :
    ∀ e ∈ countBucket b h, e.count = c e.bucket + if b = e.bucket then 1 else 0 := by
  induction h with
  | nil => simpa [countBucket] using hnew
  | cons x h ih =>
    obtain ⟨hx, hnodup⟩ := List.nodup_cons.1 hnodup
    obtain ⟨hcount, hcounts⟩ := List.forall_mem_cons.1 hcounts
    rw [countBucket]
    split
    · next hb =>
      subst hb
      refine List.forall_mem_cons.2 ⟨by simp [hcount], fun e he => ?_⟩
      have hne : x.bucket ≠ e.bucket := fun heq => hx (List.mem_map.2 ⟨e, he, heq.symm⟩)
      rw [hcounts e he, if_neg hne, Nat.add_zero]
    · next hb =>
      have hnew' : b ∉ h.map (fun e => e.bucket) → c b = 0 := fun hnot => hnew (by simpa [Ne.symm hb] using hnot)
      exact List.forall_mem_cons.2 ⟨by rw [hcount, if_neg (Ne.symm hb), Nat.add_zero], ih hnodup hcounts hnew'⟩

/-- Each entry counts the estimates of its bucket (R102). -/
theorem histogram_counts (es : List Freq) : ∀ h ∈ histogram es, h.count = (es.map bucket).count h.bucket := by
  induction es using List.reverseRecOn with
  | nil => simp [histogram]
  | append_singleton es f ih =>
    have hnew : bucket f ∉ (histogram es).map (fun e => e.bucket) → (es.map bucket).count (bucket f) = 0 := fun hnot =>
      List.count_eq_zero.2 (by simpa [histogram_buckets] using hnot)
    rw [histogram_append]
    intro h hh
    rw [countBucket_counts (c := fun b => (es.map bucket).count b) (histogram_buckets_nodup es) ih hnew h hh,
      List.map_append, List.count_append, List.map_singleton, List.count_singleton]
    simp only [beq_iff_eq]

/-- Settles O30: each part by induction over the estimates, from the last one on. -/
theorem histogramCountsTheBuckets : Obligations.HistogramCountsTheBuckets :=
  fun es => ⟨histogram_buckets es, histogram_counts es, histogram_counts_sum es⟩

/-! ## The baud rate (R103, R104) -/

/-- One of three buckets has an entry. -/
theorem present_three_iff (h : List HistEntry) (a b c : Nat) :
    (present h a || present h b || present h c) = true ↔ ∃ e ∈ h, e.bucket ∈ [a, b, c] := by
  simp [present, and_or_left, exists_or, or_assoc]

theorem near1200_iff (h : List HistEntry) : near1200 h = true ↔ ∃ e ∈ h, e.bucket ∈ [1100, 1200, 1300] :=
  present_three_iff h 1100 1200 1300

theorem near600_iff (h : List HistEntry) : near600 h = true ↔ ∃ e ∈ h, e.bucket ∈ [500, 600, 700] :=
  present_three_iff h 500 600 700

theorem near2400_iff (h : List HistEntry) : near2400 h = true ↔ ∃ e ∈ h, e.bucket ∈ [2300, 2400, 2500] :=
  present_three_iff h 2300 2400 2500

/-- Settles O31: the lines of R104 in their order, each taken where those before it were not. -/
theorem baudInference : Obligations.BaudInference := by
  intro h has
  have h1200 : has [1100, 1200, 1300] ↔ near1200 h = true := (near1200_iff h).symm
  have h600 : has [500, 600, 700] ↔ near600 h = true := (near600_iff h).symm
  have h2400 : has [2300, 2400, 2500] ↔ near2400 h = true := (near2400_iff h).symm
  rw [h1200, h600, h2400, inferBaud]
  split_ifs with hfast hslow honly <;> simp_all

/-! ## The tone symbols (R105, R106) -/

theorem above_iff {f : Freq} (h : 0 < f.den) (hz : Nat) : f.above hz = true ↔ (hz : ℚ) < f.value := by
  have hden : (0 : ℚ) < f.den := by exact_mod_cast h
  rw [Freq.above, decide_eq_true_iff, gt_iff_lt, Freq.value, lt_div_iff₀ hden]
  norm_cast

/-- The ranges of R105, on the exact value. -/
theorem mapSymbol_eq {f : Freq} (h : 0 < f.den) (b : Baud) :
    mapSymbol b f =
      if 1800 < f.value then some .high
      else if 900 < f.value then some (if b = .baud1200 then .high else .low)
      else if 450 < f.value then some .low
      else none := by
  simp only [mapSymbol, above_iff h, toneHigh, toneMid, toneLow, Nat.cast_ofNat]

/-- An estimate has no tone exactly when it is at most 450 Hz (R106). -/
theorem mapSymbol_eq_none_iff {f : Freq} (h : 0 < f.den) (b : Baud) : mapSymbol b f = none ↔ f.value ≤ 450 := by
  rw [mapSymbol_eq h]
  split_ifs <;> simp only [true_iff, false_iff] <;> linarith

/-- Settles O32: each range of R105 lies below the ones tried before it. -/
theorem toneMapping : Obligations.ToneMapping := by
  intro f h
  rw [mapSymbol_eq h, mapSymbol_eq h]
  refine ⟨fun hhigh => ?_, fun hmid hle => ?_, fun hlow hle => ?_, fun hle => ?_⟩
  · simp [hhigh]
  · simp [hmid, hle.not_gt]
  · have : ¬ 1800 < f.value := by linarith
    simp [this, hle.not_gt, hlow]
  · have h1 : ¬ 1800 < f.value := by linarith
    have h2 : ¬ 900 < f.value := by linarith
    simp [h1, h2, hle.not_gt]

/-- Symbols are mapped up to an estimate and then from it on. -/
theorem mapSymbols_append {b : Baud} {es : List Freq} {syms : List Tone} (h : es.map (mapSymbol b) = syms.map some)
    (j : Nat) (rest : List Freq) :
    mapSymbols b j (es ++ rest) =
      (syms ++ (mapSymbols b (j + es.length) rest).1, (mapSymbols b (j + es.length) rest).2) := by
  induction es generalizing j syms with
  | nil =>
    cases List.map_eq_nil_iff.1 h.symm
    rfl
  | cons f es ih =>
    obtain ⟨t, syms, rfl, ht, hrest⟩ := List.map_eq_cons_iff.1 h.symm
    rw [List.cons_append, mapSymbols, ← ht]
    simp only [ih hrest.symm, List.length_cons, List.cons_append, Nat.add_assoc, Nat.add_comm 1]

/-- Every estimate has its symbol (R105). -/
theorem mapSymbols_of_map_eq {b : Baud} {es : List Freq} {syms : List Tone} (h : es.map (mapSymbol b) = syms.map some) :
    mapSymbols b 0 es = (syms, none) := by
  simpa [mapSymbols] using mapSymbols_append h 0 []

/-- The mapping stops at the first estimate that has no symbol (R106). -/
theorem mapSymbols_of_take_map_eq {b : Baud} {es : List Freq} {syms : List Tone} {j : Nat} {f : Freq}
    (hj : es[j]? = some f) (hf : mapSymbol b f = none) (h : (es.take j).map (mapSymbol b) = syms.map some) :
    mapSymbols b 0 es = (syms, some (j, f)) := by
  obtain ⟨hlt, rfl⟩ := List.getElem?_eq_some_iff.1 hj
  have happend := mapSymbols_append h 0 (es.drop j)
  rw [List.take_append_drop, List.drop_eq_getElem_cons hlt, mapSymbols, hf] at happend
  simpa [Nat.min_eq_left hlt.le] using happend

end Sys2Proof.Machine
end

section
/-! SUPPORT. CLASSIFY over whole states: its result, its errors, and the exact value of the error that names an estimate
(R97, R98, R104 to R107, R145, R160). -/

namespace Sys2Proof.Machine

/-! ## The ways through CLASSIFY -/

theorem exec_classify (s : State) : exec .classify s = .next (classifyBody s).complete := rfl

/-- The estimates of the crossings XING[0 .. XING_COUNT), which CLASSIFY works on (R107). -/
def State.xingEstimates (s : State) : Estimates :=
  estimates s.regs.sampleRate.toNat ((List.range s.regs.xingCount.toNat).map s.xing)

section
variable {s : State} {es : List Freq} {b : Baud} {syms : List Tone} {j : Nat} {f : Freq}

theorem classifyBody_zeroRate (h : s.regs.sampleRate = 0) :
    classifyBody s = .raised s.clearClassified (.badConfig 2) := by
  rw [classifyBody, if_pos h]

theorem classifyBody_zeroInterval (h : s.regs.sampleRate ≠ 0) (hes : s.xingEstimates = .zeroInterval j) :
    classifyBody s = .raised s.clearClassified (.zeroInterval j) := by
  rw [State.xingEstimates, ← xings_eq] at hes
  rw [classifyBody, if_neg h, hes]

theorem classifyBody_estimates (h : s.regs.sampleRate ≠ 0) (hes : s.xingEstimates = .ok es) :
    classifyBody s = classifyEstimates es s := by
  rw [State.xingEstimates, ← xings_eq] at hes
  rw [classifyBody, if_neg h, hes]

/-- The state with the histogram of the estimates built, and BAUD at a code (R107). -/
def State.withHistogram (s : State) (es : List Freq) (code : BitVec 2) : State :=
  (s.setHistogram es.length (histogram es)).setBaud code

theorem classifyEstimates_only1200 (h : inferBaud (histogram es) = .only1200) :
    classifyEstimates es s = .raised ((s.withHistogram es 0).setSymCount 0) .faulty1200Only := by
  simp only [classifyEstimates, h, State.withHistogram]

theorem classifyEstimates_no1200 (h : inferBaud (histogram es) = .no1200) :
    classifyEstimates es s = .raised ((s.withHistogram es 0).setSymCount 0) .faultyNo1200 := by
  simp only [classifyEstimates, h, State.withHistogram]

/-- The state with the mapped symbols in SYM (R107). -/
def State.withSymbols (s : State) (syms : List Tone) (count : Nat) : State :=
  (s.setMem { s.mem with sym := Buf.writePrefix s.mem.sym syms }).setSymCount count

theorem classifyEstimates_mapped (hb : inferBaud (histogram es) = .baud b) (hm : mapSymbols b 0 es = (syms, none)) :
    classifyEstimates es s = .done ((s.withHistogram es b.code).withSymbols syms es.length) := by
  simp only [classifyEstimates, hb, mapStage, hm, State.withHistogram, State.withSymbols]

theorem classifyEstimates_unidentified (hb : inferBaud (histogram es) = .baud b)
    (hm : mapSymbols b 0 es = (syms, some (j, f))) :
    classifyEstimates es s =
      .raised ((s.withHistogram es b.code).withSymbols syms 0) (.unidentifiedTone j f) := by
  simp only [classifyEstimates, hb, mapStage, hm, State.withHistogram, State.withSymbols]

end

/-! ## The result and the errors -/

/-- Settles O33: with a baud rate and every symbol mapped, CLASSIFY is done. -/
theorem classifyResult : Obligations.ClassifyResult := by
  intro s es b syms hrate hes hb hsyms
  rw [exec_classify, classifyBody_estimates hrate hes, classifyEstimates_mapped hb (mapSymbols_of_map_eq hsyms),
    complete_done]
  cases b <;> rfl

/-- Settles O34: the two errors that come before the histogram. -/
theorem classifyErrorsBeforeTheHistogram : Obligations.ClassifyErrorsBeforeTheHistogram := by
  intro s raised
  refine ⟨fun hzero => ?_, fun j hrate hes => ?_⟩
  · rw [exec_classify, classifyBody_zeroRate hzero, complete_raised]
    rfl
  · rw [exec_classify, classifyBody_zeroInterval hrate hes, complete_raised]
    rfl

/-- Settles O35: the two faulty recordings, where nothing is mapped, and the first estimate without a tone. -/
theorem classifyErrorsAfterTheHistogram : Obligations.ClassifyErrorsAfterTheHistogram := by
  intro s es hrate hes raised
  refine ⟨fun honly => ?_, fun hno => ?_, fun b j f syms hb hj hf hsyms => ?_⟩
  · rw [exec_classify, classifyBody_estimates hrate hes, classifyEstimates_only1200 honly, complete_raised]
    simp only [raised, writePrefix_nil]
    rfl
  · rw [exec_classify, classifyBody_estimates hrate hes, classifyEstimates_no1200 hno, complete_raised]
    simp only [raised, writePrefix_nil]
    rfl
  · rw [exec_classify, classifyBody_estimates hrate hes,
      classifyEstimates_unidentified hb (mapSymbols_of_take_map_eq hj hf hsyms), complete_raised]
    cases b <;> rfl

/-! ## The exact error value (R106, R145) -/

/-- The first estimate of at most 450 Hz is where the mapping stops, at either baud rate (R106). -/
theorem mapSymbols_of_first_low {es : List Freq} {j : Nat} {f : Freq} (b : Baud) (hden : ∀ g ∈ es, 0 < g.den)
    (hj : es[j]? = some f) (hlow : f.value ≤ 450)
    (hfirst : ∀ (i : Nat) (g : Freq), i < j → es[i]? = some g → 450 < g.value) :
    ∃ syms, mapSymbols b 0 es = (syms, some (j, f)) := by
  have hnone : mapSymbol b f = none := (mapSymbol_eq_none_iff (hden f (List.mem_of_getElem? hj)) b).2 hlow
  have hsome : ∀ t ∈ (es.take j).map (mapSymbol b), t.isSome := fun t ht => by
    obtain ⟨g, hg, rfl⟩ := List.mem_map.1 ht
    obtain ⟨i, hi⟩ := List.mem_iff_getElem?.1 hg
    rw [List.getElem?_take, Option.ite_none_right_eq_some] at hi
    obtain ⟨hij, hi⟩ := hi
    rw [Option.isSome_iff_ne_none, Ne, mapSymbol_eq_none_iff (hden g (List.mem_of_getElem? hi)), not_le]
    exact hfirst i g hij hi
  refine ⟨(es.take j).filterMap (mapSymbol b), mapSymbols_of_take_map_eq hj hnone ?_⟩
  rw [List.map_filterMap_some_eq_filter_map_isSome, List.filter_eq_self.2 hsome]

/-- An estimate of at most 450 Hz is reported by its floor: no register is too narrow for it (R106). -/
theorem natWord_floor_toNat {f : Freq} (hlow : f.value ≤ 450) : ((natWord f.floor).toNat : Int) = ⌊f.value⌋ := by
  have hfloor : ((f.floor : Nat) : Int) = ⌊f.value⌋ := by
    rw [Freq.floor, Freq.value, Rat.floor_natCast_div_natCast]
    rfl
  have hle : ⌊f.value⌋ ≤ 450 := Int.floor_le_iff.2 (by push_cast; linarith)
  rw [natWord_toNat (by omega), hfloor]

/-- Settles O60: the estimate the mapping stops at is in the error value of both, and completion reports it. -/
theorem unidentifiedToneIsReportedExactly : Obligations.UnidentifiedToneIsReportedExactly := by
  intro es b j f hb hj hlow hfirst
  have hmap {r : Nat} {cs : List Crossing} (hes : estimates r cs = .ok es) :
      ∃ syms, mapSymbols b 0 es = (syms, some (j, f)) :=
    mapSymbols_of_first_low b (fun g => den_pos_of_estimates hes) hj hlow hfirst
  refine ⟨fun s hrate hes => ?_, fun fmt samples r threshold hchannels hcompressed hes => ?_⟩
  · obtain ⟨syms, hm⟩ := hmap hes
    have hbody := (classifyBody_estimates hrate hes).trans (classifyEstimates_unidentified hb hm)
    have hlen : es.length < 2 ^ 32 := by
      obtain ⟨-, rfl⟩ := estimates_ok hes
      have := s.regs.xingCount.isLt
      rw [estimateList_length, List.length_map, List.length_range]
      omega
    have hjlen : j < es.length := (List.getElem?_eq_some_iff.1 hj).1
    refine ⟨_, hbody, _, by rw [exec_classify, hbody, complete_raised], rfl, rfl, natWord_toNat (hjlen.trans hlen),
      natWord_floor_toNat hlow, rfl, ?_⟩
    exact setHistogram_histEntries s es.length ((histogram_length_le es).trans_lt hlen)
  · obtain ⟨syms, hm⟩ := hmap hes
    simp only [decodeSamples, (acceptable_iff fmt).2 ⟨hchannels, hcompressed⟩, hes, decodeEstimates, hb, hm,
      Bool.not_true, Bool.false_eq_true, if_false]

end Sys2Proof.Machine
end

section
/-! SUPPORT. BITDEC: the sequences its decoder accepts, where it fails on the others (R109 to R117), and its result over
whole states (R118). -/

namespace Sys2Proof.Machine

/-! ## The tokens (R110, R111) -/

theorem tokenOf_length_pos (b : Baud) (bit : Bool) : 0 < (tokenOf b bit).length := by
  cases b <;> cases bit <;> decide

/-- A token is made of one tone, which tells its bit. -/
theorem head?_tokenOf (b : Baud) (bit : Bool) : (tokenOf b bit).head? = some (if bit then .high else .low) := by
  cases b <;> cases bit <;> rfl

theorem length_le_flatMap_tokenOf (b : Baud) (bits : List Bool) : bits.length ≤ (bits.flatMap (tokenOf b)).length := by
  induction bits with
  | nil => exact Nat.zero_le _
  | cons bit bits ih =>
    have := tokenOf_length_pos b bit
    simp only [List.length_cons, List.flatMap_cons, List.length_append]
    omega

/-- What is left of the symbols begins with no token (R112). -/
def NoTokenAhead (b : Baud) (rest : List Tone) : Prop := ∀ bit, ¬ tokenOf b bit <+: rest

/-- Every sequence is the tokens of some bits and then symbols that begin with no token. -/
theorem exists_flatMap_tokenOf_append (b : Baud) (l : List Tone) :
    ∃ (bits : List Bool) (rest : List Tone), l = bits.flatMap (tokenOf b) ++ rest ∧ NoTokenAhead b rest := by
  by_cases h : NoTokenAhead b l
  · exact ⟨[], l, rfl, h⟩
  · obtain ⟨bit, tail, hl⟩ : ∃ bit, tokenOf b bit <+: l := by simpa only [NoTokenAhead, not_forall, not_not] using h
    have hshorter : tail.length < l.length := by
      have := tokenOf_length_pos b bit
      rw [← hl, List.length_append]
      omega
    obtain ⟨bits, rest, htail, hrest⟩ := exists_flatMap_tokenOf_append b tail
    exact ⟨bit :: bits, rest, by rw [← hl, htail, List.flatMap_cons, List.append_assoc], hrest⟩
termination_by l.length

/-- A trailing tone is shorter than the token of a 1 and has no Low symbol (R113). -/
theorem noTokenAhead_replicate_high {b : Baud} {n : Nat} (h : n < oneLen b) :
    NoTokenAhead b (List.replicate n .high) := by
  intro bit hprefix
  cases bit with
  | false =>
    have hlow : Tone.low ∈ tokenOf b false := by cases b <;> decide
    simpa using List.eq_of_mem_replicate (hprefix.subset hlow)
  | true =>
    have hle := hprefix.length_le
    simp only [tokenOf, if_true, List.length_replicate] at hle
    omega

/-! ## The Decode state (R110 to R112) -/

/-- How the decoder ends at position `pos` with `rest` left: well, at a trailing tone, or on a bad token (R113, R114). -/
def decodeEnd (b : Baud) (pos : Nat) (rest : List Tone) : Option (Nat × List Tone) :=
  if rest.length < oneLen b ∧ ∀ t ∈ rest, t = Tone.high then none else some (pos, rest.take (oneLen b))

theorem decodeEnd_eq_none_iff {b : Baud} {pos : Nat} {rest : List Tone} :
    decodeEnd b pos rest = none ↔ ∃ n, n < oneLen b ∧ rest = List.replicate n .high := by
  simp only [decodeEnd, ite_eq_left_iff, reduceCtorEq, imp_false, not_not]
  constructor
  · rintro ⟨hlen, hhigh⟩
    exact ⟨_, hlen, List.eq_replicate_of_mem hhigh⟩
  · rintro ⟨n, hn, rfl⟩
    exact ⟨by simpa using hn, fun t => List.eq_of_mem_replicate⟩

theorem decodeEnd_eq_some_iff {b : Baud} {pos p : Nat} {rest ctx : List Tone} :
    decodeEnd b pos rest = some (p, ctx) ↔
      ¬ (rest.length < oneLen b ∧ ∀ t ∈ rest, t = .high) ∧ pos = p ∧ rest.take (oneLen b) = ctx := by
  simp only [decodeEnd, Option.ite_none_left_eq_some, Option.some.injEq, Prod.mk.injEq]

/-- A token at the front is one bit, and decoding goes on after it. -/
theorem decodeTokens_token (b : Baud) (bit : Bool) (fuel pos : Nat) (rest : List Tone) :
    decodeTokens (zeroLen b) (oneLen b) (fuel + 1) pos (tokenOf b bit ++ rest) =
      (bit :: (decodeTokens (zeroLen b) (oneLen b) fuel (pos + (tokenOf b bit).length) rest).1,
        (decodeTokens (zeroLen b) (oneLen b) fuel (pos + (tokenOf b bit).length) rest).2) := by
  cases bit with
  | false => simp [decodeTokens, tokenOf]
  | true =>
    have hnot : (tokenOf b true ++ rest).take (zeroLen b) ≠ List.replicate (zeroLen b) .low := by
      cases b <;> simp [tokenOf, zeroLen, oneLen, List.replicate_succ]
    rw [decodeTokens, if_neg hnot]
    simp [tokenOf]

/-- With no token at the front the decoder ends. -/
theorem decodeTokens_noTokenAhead {b : Baud} {rest : List Tone} (h : NoTokenAhead b rest) (fuel pos : Nat) :
    decodeTokens (zeroLen b) (oneLen b) (fuel + 1) pos rest = ([], decodeEnd b pos rest) := by
  have hzero : ¬ rest.take (zeroLen b) = List.replicate (zeroLen b) .low := fun heq =>
    h false (List.prefix_iff_eq_take.2 (by simpa [tokenOf] using heq.symm))
  have hone : ¬ rest.take (oneLen b) = List.replicate (oneLen b) .high := fun heq =>
    h true (List.prefix_iff_eq_take.2 (by simpa [tokenOf] using heq.symm))
  rw [decodeTokens, if_neg hzero, if_neg hone, decodeEnd]
  split_ifs <;> rfl

/-- The decoder reads tokens as their bits, up to where none is ahead. -/
theorem decodeTokens_flatMap_tokenOf {b : Baud} {rest : List Tone} (h : NoTokenAhead b rest) {bits : List Bool}
    {fuel : Nat} (hfuel : bits.length < fuel) (pos : Nat) :
    decodeTokens (zeroLen b) (oneLen b) fuel pos (bits.flatMap (tokenOf b) ++ rest) =
      (bits, decodeEnd b (pos + (bits.flatMap (tokenOf b)).length) rest) := by
  induction bits generalizing fuel pos with
  | nil =>
    obtain ⟨fuel, rfl⟩ := Nat.exists_eq_succ_of_ne_zero hfuel.ne'
    exact decodeTokens_noTokenAhead h fuel pos
  | cons bit bits ih =>
    obtain ⟨fuel, rfl⟩ := Nat.exists_eq_succ_of_ne_zero (Nat.ne_zero_of_lt hfuel)
    rw [List.flatMap_cons, List.append_assoc, decodeTokens_token, ih (Nat.lt_of_succ_lt_succ hfuel),
      List.length_append, Nat.add_assoc]

/-! ## The decoder after its preamble (R109, R112) -/

/-- The symbols after the preamble, as the bit decoder and its statements write them. -/
theorem drop_preambleLength (s : List Tone) : s.drop (preambleLength s) = s.dropWhile (fun t => t == .high) := by
  have hdrop := List.drop_left (l₁ := s.takeWhile (fun t => t == .high)) (l₂ := s.dropWhile (fun t => t == .high))
  rwa [List.takeWhile_append_dropWhile] at hdrop

theorem preambleLength_add_dropWhile (s : List Tone) :
    preambleLength s + (s.dropWhile (fun t => t == .high)).length = s.length := by
  rw [preambleLength, ← List.length_append, List.takeWhile_append_dropWhile]

/-- What the decoder answers on tokens that end where none is ahead. -/
theorem bitDecode_eq {b : Baud} {s : List Tone} {bits : List Bool} {rest : List Tone}
    (hs : s.dropWhile (fun t => t == .high) = bits.flatMap (tokenOf b) ++ rest) (h : NoTokenAhead b rest) :
    bitDecode b s = (bits, decodeEnd b (s.length - rest.length) rest) := by
  have hlen := preambleLength_add_dropWhile s
  have hbits := length_le_flatMap_tokenOf b bits
  rw [hs, List.length_append] at hlen
  rw [bitDecode, drop_preambleLength, hs, decodeTokens_flatMap_tokenOf h (by omega)]
  congr 2
  omega

/-- Every sequence is read so: the bits emitted are the tokens after the preamble, and the end is at what is left. -/
theorem bitDecode_cases (b : Baud) (s : List Tone) :
    ∃ bits rest, s.dropWhile (fun t => t == .high) = bits.flatMap (tokenOf b) ++ rest ∧ NoTokenAhead b rest ∧
      bitDecode b s = (bits, decodeEnd b (s.length - rest.length) rest) := by
  obtain ⟨bits, rest, hs, h⟩ := exists_flatMap_tokenOf_append b (s.dropWhile (fun t => t == .high))
  exact ⟨bits, rest, hs, h, bitDecode_eq hs h⟩

/-- Settles O37: the decoder's bits are its tokens, and it ends well exactly at a trailing tone. -/
theorem bitDecoderAcceptsExactlyTheGrammar : Obligations.BitDecoderAcceptsExactlyTheGrammar := by
  intro b s bits
  constructor
  · intro hd
    obtain ⟨bits', rest, hs, -, hread⟩ := bitDecode_cases b s
    obtain ⟨rfl, hend⟩ := Prod.mk.inj (hread.symm.trans hd)
    obtain ⟨n, hn, rfl⟩ := decodeEnd_eq_none_iff.1 hend
    exact ⟨n, hn, hs⟩
  · rintro ⟨n, hn, hs⟩
    rw [bitDecode_eq hs (noTokenAhead_replicate_high hn), decodeEnd_eq_none_iff.2 ⟨n, hn, rfl⟩]

/-! ## The first bad token (R114 to R117) -/

/-- The decoder fails exactly at the first bad token: no token is ahead and no trailing tone is left (R112, R116). -/
theorem bitDecode_eq_some_iff {b : Baud} {s : List Tone} {bits : List Bool} {p : Nat} {ctx : List Tone} :
    bitDecode b s = (bits, some (p, ctx)) ↔
      ∃ rest, s.dropWhile (fun t => t == .high) = bits.flatMap (tokenOf b) ++ rest ∧ p + rest.length = s.length ∧
        ctx = rest.take (oneLen b) ∧ NoTokenAhead b rest ∧
        ¬ (rest.length < oneLen b ∧ ∀ t ∈ rest, t = .high) := by
  constructor
  · intro hd
    obtain ⟨bits', rest, hs, h, hread⟩ := bitDecode_cases b s
    obtain ⟨rfl, hend⟩ := Prod.mk.inj (hread.symm.trans hd)
    obtain ⟨hbad, hp, hctx⟩ := decodeEnd_eq_some_iff.1 hend
    have hlen := preambleLength_add_dropWhile s
    rw [hs, List.length_append] at hlen
    exact ⟨rest, hs, by omega, hctx.symm, h, hbad⟩
  · rintro ⟨rest, hs, hp, rfl, h, hbad⟩
    rw [bitDecode_eq hs h, decodeEnd_eq_some_iff.2 ⟨hbad, Nat.sub_eq_of_eq_add hp.symm, rfl⟩]

/-- At 1200 baud a bad token is one High symbol before a Low one (R115). -/
theorem badToken_baud1200 {rest : List Tone} (h : NoTokenAhead .baud1200 rest)
    (hbad : ¬ (rest.length < oneLen .baud1200 ∧ ∀ t ∈ rest, t = .high)) : ∃ tail, rest = .high :: .low :: tail := by
  have hzero : ¬ [.low] <+: rest := h false
  have hone : ¬ [.high, .high] <+: rest := h true
  match rest with
  | [] => exact absurd ⟨by decide, by simp⟩ hbad
  | .low :: _ => simp at hzero
  | [.high] => exact absurd ⟨by decide, by simp⟩ hbad
  | .high :: .high :: _ => simp at hone
  | .high :: .low :: tail => exact ⟨tail, rfl⟩

/-- What is left of a sequence after its preamble and some tokens stands in it at its position from the end. -/
theorem getElem?_add_of_dropWhile_eq {s toks rest : List Tone} {p : Nat}
    (hs : s.dropWhile (fun t => t == .high) = toks ++ rest) (hp : p + rest.length = s.length) (i : Nat) :
    s[p + i]? = rest[i]? := by
  have hsuffix : rest <:+ s := (List.suffix_append toks rest).trans (hs ▸ List.dropWhile_suffix _)
  obtain ⟨front, rfl⟩ := hsuffix
  rw [List.length_append, Nat.add_right_cancel_iff] at hp
  rw [hp, List.getElem?_append_right (Nat.le_add_right _ _), Nat.add_sub_cancel_left]

/-- The preamble ends before a Low symbol, and so no 1 comes first (R117). -/
theorem bitDecode_head?_ne_true (b : Baud) (s : List Tone) : (bitDecode b s).1.head? ≠ some true := by
  obtain ⟨bits, rest, hs, -, hread⟩ := bitDecode_cases b s
  rw [hread]
  intro hhead
  obtain ⟨bits, rfl⟩ := List.head?_eq_some_iff.1 hhead
  have hhigh : (s.dropWhile (fun t => t == .high)).head? = some .high := by
    rw [hs, List.flatMap_cons, List.append_assoc, List.head?_append, head?_tokenOf]
    rfl
  have hnot := List.head?_dropWhile_not (fun t => t == Tone.high) s
  rw [hhigh] at hnot
  cases hnot

/-- Settles O38: the decoder fails at its first bad token, which 1200 baud leaves one shape. -/
theorem bitDecoderFailsAtTheFirstBadToken : Obligations.BitDecoderFailsAtTheFirstBadToken := by
  refine ⟨fun b s bits p ctx => ?_, fun s bits p ctx hd => ?_, bitDecode_head?_ne_true⟩
  · simp only [bitDecode_eq_some_iff, NoTokenAhead, Bool.forall_bool, and_assoc]
  · obtain ⟨rest, hs, hp, rfl, h, hbad⟩ := bitDecode_eq_some_iff.1 hd
    obtain ⟨tail, rfl⟩ := badToken_baud1200 h hbad
    exact ⟨getElem?_add_of_dropWhile_eq hs hp 0, getElem?_add_of_dropWhile_eq hs hp 1, rfl⟩

/-! ## The result of BITDEC (R118) -/

theorem decodeStage_wellFormed {b : Baud} {syms : List Tone} {bits : List Bool} (h : bitDecode b syms = (bits, none))
    (s : State) :
    decodeStage b syms s =
      .done ((s.setMem { s.mem with bit := Buf.writePrefix s.mem.bit bits }).setDecoded
        (preambleLength syms) bits.length) := by
  simp only [decodeStage, h]

/-- Settles O39: with both checks passed and the sequence well formed, BITDEC is done. -/
theorem bitdecResult : Obligations.BitdecResult := by
  intro s b bits hb hfit hd
  have hcode : s.regs.baud = b.code := by cases b <;> exact hb
  rw [exec_bitdec, bitdecBody_decodes hcode hfit, syms_eq, decodeStage_wellFormed hd, complete_done]
  rfl

end Sys2Proof.Machine
end

section
/-! SUPPORT. FRAME: the byte a frame carries and the frames of a bitstream one by one (R120 to R124), and its result
over whole states (R125). -/

namespace Sys2Proof.Machine

/-! ## The byte of one frame (R121, R122) -/

/-- The bits of a word weighed by their places add up to the word, as far as they are taken. -/
theorem foldl_getLsbD_mul_two_pow {w : Nat} (v : BitVec w) (n : Nat) :
    (List.range n).foldl (fun acc m => acc + (v.getLsbD m).toNat * 2 ^ m) 0 = v.toNat % 2 ^ n := by
  induction n with
  | zero => simp [Nat.mod_one]
  | succ n ih =>
    rw [List.range_succ, List.foldl_append, ih, Nat.mod_pow_succ, ← Nat.toNat_testBit, BitVec.testBit_toNat,
      List.foldl_cons, List.foldl_nil, mul_comm]

/-- Only bits 1 to 8 of a frame count. -/
theorem byteOf_eq_of_getD {f : List Bool} {v : Byte} (h : ∀ m < 8, f.getD (1 + m) false = v.getLsbD m) :
    byteOf f = v := by
  have hsum : (List.range 8).foldl (fun acc m => acc + (f.getD (1 + m) false).toNat * 2 ^ m) 0 = v.toNat % 2 ^ 8 := by
    rw [← foldl_getLsbD_mul_two_pow]
    refine List.foldl_ext _ _ _ fun acc m hm => ?_
    rw [h m (List.mem_range.1 hm)]
  rw [byteOf, hsum, Nat.mod_eq_of_lt v.isLt, BitVec.ofNat_toNat, BitVec.setWidth_eq]

/-- The start bit and what follows the eight data bits are not looked at (R121). -/
theorem byteOf_dataBits (v : Byte) (start : Bool) (stops : List Bool) :
    byteOf (start :: ((List.range 8).map (fun m => v.getLsbD m) ++ stops)) = v := by
  refine byteOf_eq_of_getD fun m hm => ?_
  rw [add_comm, List.getD_cons_succ, List.getD_append _ _ _ _ (by simpa using hm)]
  simp [hm]

/-! ## The frames of a bitstream (R120, R123, R124) -/

/-- A remainder of fewer than 11 bits is dropped. -/
theorem frame_of_length_lt {b : List Bool} (h : b.length < 11) : frame b = [] := by
  rw [← List.length_eq_zero_iff, frame_length, Nat.div_eq_of_lt h]

/-- The first 11 bits are the first frame, and the next frame begins right after them. -/
theorem frame_append {f : List Bool} (hf : f.length = 11) (rest : List Bool) :
    frame (f ++ rest) = byteOf f :: frame rest := by
  have hcount : (f ++ rest).length / frameBits = rest.length / frameBits + 1 := by
    simp only [List.length_append, hf, frameBits]
    omega
  have hfirst : (f ++ rest).take frameBits = f := List.take_left' hf
  have hdrop (k : Nat) : (f ++ rest).drop (frameBits * (k + 1)) = rest.drop (frameBits * k) := by
    have hrest : (f ++ rest).drop frameBits = rest := List.drop_left' hf
    rw [mul_add_one, add_comm, ← List.drop_drop, hrest]
  simp only [frame, hcount, List.range_succ_eq_map, List.map_cons, List.map_map, Function.comp_def, mul_zero,
    List.drop_zero, hfirst, Nat.succ_eq_add_one, hdrop]

theorem frame_flatMap_frameOf (ys : List Byte) {tail : List Bool} (h : tail.length < 11) :
    frame (ys.flatMap frameOf ++ tail) = ys := by
  induction ys with
  | nil => exact frame_of_length_lt h
  | cons v ys ih =>
    rw [List.flatMap_cons, List.append_assoc, frame_append (by simp [frameOf]), ih, frameOf, byteOf_dataBits]

/-- Settles O42: one frame is a first frame with nothing after it, and a list of bytes is read frame by frame. -/
theorem framerReadsBackEveryByte : Obligations.FramerReadsBackEveryByte := by
  refine ⟨fun v start stop1 stop2 => ?_, fun ys tail => frame_flatMap_frameOf ys, frame_length⟩
  have hone := frame_append (f := start :: ((List.range 8).map (fun m => v.getLsbD m) ++ [stop1, stop2])) (by simp) []
  rwa [List.append_nil, byteOf_dataBits, frame_of_length_lt (b := []) (by decide)] at hone

/-! ## The result of FRAME (R125) -/

theorem exec_frame (s : State) : exec .frame s = .next (frameBody s).complete := rfl

/-- Settles O43: within the capacity the body writes the bytes of the bits, and beyond it its check fails. -/
theorem frameResult : Obligations.FrameResult := by
  intro s bytes
  refine ⟨fun hfit => ?_, fun hgt => ?_⟩
  · obtain ⟨-, y, hy, hbody⟩ := (frameBody_cases s).resolve_left fun h => hfit.not_gt h.1
    have hbytes : y = bytes := by rw [hy, bits_eq]
    rw [exec_frame, hbody, complete_done, hbytes]
    rfl
  · obtain ⟨-, hbody⟩ := (frameBody_cases s).resolve_right fun h => hgt.not_ge h.1
    rw [exec_frame, hbody, complete_raised]
    rfl

end Sys2Proof.Machine
end

section
/-! SUPPORT. The pure functions of ASSEMBLE: the checksum as a sum (R127, R128), the header fields at their places
(R130, R131), and the block loop on the blocks a byte stream holds (R133 to R136). -/

namespace Sys2Proof.Machine

/-! ## The checksum (R127, R128, R137) -/

/-- One step adds the complement of its byte (R128). -/
theorem checksumStep_eq_add_not (acc b : Byte) : checksumStep acc b = acc + ~~~b := by
  unfold checksumStep
  bv_omega

/-- The checksum is the sum of the complements of the bytes: what R128 says of order and of single bytes follows from
that. -/
theorem checksum_eq_sum (bs : List Byte) : checksum bs = (bs.map (~~~·)).sum := by
  rw [List.sum_eq_foldl, List.foldl_map, checksum]
  exact List.foldl_ext _ _ _ fun acc b _ => checksumStep_eq_add_not acc b

theorem checksum_append (bs cs : List Byte) : checksum (bs ++ cs) = checksum bs + checksum cs := by
  simp only [checksum_eq_sum, List.map_append, List.sum_append]

theorem checksum_cons (b : Byte) (bs : List Byte) : checksum (b :: bs) = ~~~b + checksum bs := by
  simp only [checksum_eq_sum, List.map_cons, List.sum_cons]

theorem toNat_not_add (b c : Byte) : (~~~b + c).toNat = (255 - b.toNat + c.toNat) % 256 := by
  rw [BitVec.toNat_add, BitVec.toNat_not]

theorem checksum_toNat (bs : List Byte) :
    ((checksum bs).toNat : Int) = (255 * (bs.length : Int) - (bs.map (fun b => (b.toNat : Int))).sum) % 256 := by
  induction bs with
  | nil => rfl
  | cons b bs ih =>
    have hb := b.isLt
    rw [checksum_cons, toNat_not_add, List.map_cons, List.sum_cons, List.length_cons]
    omega

/-- Settles O45: the checksum is a sum, so the last byte is one more summand, the order does not matter, and a byte can
be cancelled from both sides. -/
theorem checksumClosedForm : Obligations.ChecksumClosedForm := by
  refine ⟨fun bs b => ?_, checksum_toNat, fun bs cs h => ?_, fun pre post a b h => ?_⟩
  · have hlast : checksum (bs ++ [b]) = checksum bs + ~~~b := by
      rw [checksum_append, checksum_cons]
      exact congrArg _ (add_zero _)
    exact ⟨by rw [hlast, add_comm, toNat_not_add], hlast⟩
  · rw [checksum_eq_sum, checksum_eq_sum]
    exact (h.map _).sum_eq
  · simp only [checksum_append, checksum_cons] at h
    exact BitVec.not_inj.1 (add_right_cancel (add_left_cancel h))

/-! ## The header (R130, R131) -/

/-- A byte of a slice is the stream's byte at its place. -/
theorem byteAt_slice (y : List Byte) (a : Nat) {n k : Nat} (h : k < n) : byteAt (slice y a n) k = y.getD (a + k) 0 := by
  simp [byteAt, slice, List.getD_eq_getElem?_getD, List.getElem?_drop, h]

/-- A 2-byte field as a number: the byte at the lower index counts once, the next one 256 times (R70). -/
theorem littleEndian_toNat (y : List Byte) (k : Nat) :
    (littleEndian y k).toNat = (byteAt y k).toNat + 256 * (byteAt y (k + 1)).toNat := by
  rw [littleEndian, BitVec.toNat_append, ← Nat.shiftLeft_add_eq_or_of_lt (byteAt y k).isLt, Nat.shiftLeft_eq]
  omega

/-- The header record of a byte stream: that of the 16 bytes at index 101 and the checksum byte after them (R130). -/
def streamHeader (y : List Byte) : Header :=
  parseHeader (slice y headerOffset headerSize) (byteAt y (headerOffset + headerSize))

/-- A 2-byte header field at offset `k` of the header, as a number. -/
theorem streamHeader_littleEndian (y : List Byte) {k : Nat} (h : k + 1 < headerSize) :
    (littleEndian (slice y headerOffset headerSize) k).toNat =
      (y.getD (101 + k) 0).toNat + 256 * (y.getD (101 + k + 1) 0).toNat := by
  rw [littleEndian_toNat, byteAt_slice _ _ (by omega), byteAt_slice _ _ h]
  rfl

/-- The length a byte stream declares, L (R130). -/
theorem streamHeader_length (y : List Byte) :
    (streamHeader y).length.toNat = (y.getD 108 0).toNat + 256 * (y.getD 109 0).toNat :=
  streamHeader_littleEndian y (k := 7) (by decide)

theorem streamHeader_load (y : List Byte) :
    (streamHeader y).load.toNat = (y.getD 110 0).toNat + 256 * (y.getD 111 0).toNat :=
  streamHeader_littleEndian y (k := 9) (by decide)

theorem streamHeader_go (y : List Byte) :
    (streamHeader y).go.toNat = (y.getD 112 0).toNat + 256 * (y.getD 113 0).toNat :=
  streamHeader_littleEndian y (k := 11) (by decide)

theorem streamHeader_name (y : List Byte) : (streamHeader y).name = (y.drop 101).take 5 := by
  simp [streamHeader, parseHeader, slice, List.take_take, headerOffset, headerSize]

theorem streamHeader_id (y : List Byte) : (streamHeader y).id = y.getD 106 0 := byteAt_slice y 101 (n := 16) (by decide)

theorem streamHeader_fileType (y : List Byte) : (streamHeader y).fileType = y.getD 107 0 :=
  byteAt_slice y 101 (n := 16) (by decide)

/-! ## The block loop (R133, R135, R136) -/

/-- The record of data block `k` of a byte stream that declares `len` bytes (R133, R136). -/
def nthBlock (y : List Byte) (len k : Nat) : BlockEntry := blockRecord y (219 + 257 * k) (blockLen len k)

/-- The payload and the checksum byte of data block `k` are in the byte stream (R135). -/
abbrev HoldsBlock (y : List Byte) (len k : Nat) : Prop := 219 + 257 * k + blockLen len k < y.length

section
variable {y : List Byte} {fuel remaining off k : Nat}

theorem assembleBlocks_zero (y : List Byte) (fuel off k : Nat) : assembleBlocks y fuel 0 off k = ([], none) := by
  cases fuel <;> rfl

/-- A pass over a block whose bytes are there makes its record and goes on (R136). -/
theorem assembleBlocks_of_fits (hpos : 0 < remaining) (hfit : off + min 256 remaining < y.length) :
    assembleBlocks y (fuel + 1) remaining off k =
      let r := assembleBlocks y fuel (remaining - 256) (off + 257) (k + 1)
      (blockRecord y off (min 256 remaining) :: r.1, r.2) := by
  have hrest : remaining - min 256 remaining = remaining - 256 := by omega
  rw [assembleBlocks, if_neg hpos.ne', ← hrest]
  exact if_neg hfit.not_ge

/-- A pass over a block of which bytes are missing reports it (R135). -/
theorem assembleBlocks_of_missing (hpos : 0 < remaining) (hmissing : y.length ≤ off + min 256 remaining) :
    assembleBlocks y (fuel + 1) remaining off k = ([], some (k + 1)) := by
  rw [assembleBlocks, if_neg hpos.ne']
  exact if_pos hmissing

end

section
variable {y : List Byte} {len n : Nat}

/-- The first `n` passes of the loop, over blocks that are all there, make their records; the loop then stands at block
`n`. -/
theorem assembleBlocks_after (hn : n ≤ blocksFor len) (hfit : ∀ j < n, HoldsBlock y len j) :
    assembleBlocks y len len firstBlockOffset 0 =
      let r := assembleBlocks y (len - n) (len - 256 * n) (219 + 257 * n) n
      ((List.range n).map (nthBlock y len) ++ r.1, r.2) := by
  induction n with
  | zero => rfl
  | succ n ih =>
    have hpos : 0 < len - 256 * n := by unfold blocksFor at hn; omega
    have hfuel : len - n = len - (n + 1) + 1 := by omega
    have hrest : len - 256 * n - 256 = len - 256 * (n + 1) := by omega
    have hnext : 219 + 257 * n + 257 = 219 + 257 * (n + 1) := by omega
    rw [ih (by omega) fun j hj => hfit j (by omega), hfuel, assembleBlocks_of_fits hpos (hfit n (by omega)), hrest,
      hnext, List.range_succ, List.map_append]
    simp only [List.append_assoc]
    rfl

/-- When every block is there the loop makes every record and reports nothing (R134, R136). -/
theorem assembleBlocks_of_all (hfit : ∀ j < blocksFor len, HoldsBlock y len j) :
    assembleBlocks y len len firstBlockOffset 0 = ((List.range (blocksFor len)).map (nthBlock y len), none) := by
  have hdone : len - 256 * blocksFor len = 0 := by unfold blocksFor; omega
  rw [assembleBlocks_after le_rfl hfit, hdone, assembleBlocks_zero]
  simp only [List.append_nil]

/-- The loop stops at the first block that is not there, with the records of those before it (R135, R138). -/
theorem assembleBlocks_of_first_missing (hn : n < blocksFor len) (hmissing : ¬ HoldsBlock y len n)
    (hfit : ∀ j < n, HoldsBlock y len j) :
    assembleBlocks y len len firstBlockOffset 0 = ((List.range n).map (nthBlock y len), some (n + 1)) := by
  have hpos : 0 < len - 256 * n := by unfold blocksFor at hn; omega
  have hfuel : len - n = len - (n + 1) + 1 := by omega
  rw [assembleBlocks_after hn.le hfit, hfuel, assembleBlocks_of_missing hpos (not_lt.1 hmissing)]
  simp only [List.append_nil]

/-- The lengths of the first `n` blocks add up to the bytes declared, as far as `n` blocks of 256 bytes reach (R134). -/
theorem sum_blockLen (len n : Nat) : ((List.range n).map (blockLen len)).sum = min (256 * n) len := by
  induction n with
  | zero => simp
  | succ n ih =>
    rw [List.sum_range_succ, ih, blockLen]
    omega

theorem sum_blockLen_blocksFor (len : Nat) : ((List.range (blocksFor len)).map (blockLen len)).sum = len := by
  rw [sum_blockLen, blocksFor]
  omega

/-- The records of a run of blocks, one by one (R129, R133, R136). -/
theorem nthBlock_of_getElem? {k : Nat} {b : BlockEntry}
    (h : ((List.range n).map (nthBlock y len))[k]? = some b) :
    b.offset = 219 + 257 * k ∧ b.length = blockLen len k ∧
      b.computed = checksum ((y.drop (219 + 257 * k)).take (blockLen len k)) ∧
      b.stored = y.getD (219 + 257 * k + blockLen len k) 0 ∧ b.ok = (b.computed == b.stored) := by
  rw [List.getElem?_map, Option.map_eq_some_iff] at h
  obtain ⟨i, hi, rfl⟩ := h
  obtain ⟨_, hik⟩ := List.getElem?_eq_some_iff.1 hi
  rw [List.getElem_range] at hik
  subst hik
  exact ⟨rfl, rfl, rfl, rfl, rfl⟩

end

/-! ## The whole byte stream (R135, R136) -/

section
variable {y : List Byte} {blocks : List BlockEntry} {len : Nat}

theorem assemble_of_short (h : y.length < 118) : assemble y = .truncated 0 [] := if_pos h

/-- A block loop over the declared length that misses no byte gives an image (R136). -/
theorem assemble_of_blocks (h : 118 ≤ y.length) (hlen : (streamHeader y).length.toNat = len)
    (hloop : assembleBlocks y len len firstBlockOffset 0 = (blocks, none)) :
    assemble y = .image (streamHeader y) blocks := by
  subst hlen
  have hheader : ¬ y.length < headerOffset + headerSize + 1 := h.not_gt
  unfold streamHeader at hloop ⊢
  simp only [assemble, hheader, if_false, hloop]

/-- A block loop over the declared length that misses bytes gives a truncation (R135, R136). -/
theorem assemble_of_missing {e : Nat} (h : 118 ≤ y.length) (hlen : (streamHeader y).length.toNat = len)
    (hloop : assembleBlocks y len len firstBlockOffset 0 = (blocks, some e)) :
    assemble y = .truncated e blocks := by
  subst hlen
  have hheader : ¬ y.length < headerOffset + headerSize + 1 := h.not_gt
  unfold streamHeader at hloop
  simp only [assemble, hheader, if_false, hloop]

end

/-- Settles O46: the header is read at its place, and the block loop over a stream that holds every block misses
none. -/
theorem assembleReadsHeaderAndBlocks : Obligations.AssembleReadsHeaderAndBlocks := by
  intro y at_ len hy hfit
  refine ⟨_, _, assemble_of_blocks hy (streamHeader_length y) (assembleBlocks_of_all hfit), ?_,
    by rw [List.length_map, List.length_range], ?_, fun k b => nthBlock_of_getElem?⟩
  · exact ⟨streamHeader_name y, streamHeader_id y, streamHeader_fileType y, streamHeader_length y, streamHeader_load y,
      streamHeader_go y, rfl, rfl, rfl⟩
  · rw [List.map_map]
    exact sum_blockLen_blocksFor len

/-- Settles O47: either the header is not there, or the block loop stops at the first block that is not. -/
theorem assembleReportsTheFirstMissingBytes : Obligations.AssembleReportsTheFirstMissingBytes := by
  intro y len
  refine ⟨assemble_of_short, fun k hy hk hmissing hfit => ?_⟩
  have hloop := assembleBlocks_of_first_missing hk hmissing.not_gt hfit
  exact ⟨_, assemble_of_missing hy (streamHeader_length y) hloop, by rw [List.length_map, List.length_range],
    fun j b => nthBlock_of_getElem?⟩

end Sys2Proof.Machine
end

section
/-! SUPPORT. ASSEMBLE over whole states: its errors (R126, R135, R138), and IMAGE_VALID as the sign of a command that
ended without one (R139, R152). -/

namespace Sys2Proof.Machine

/-! ## The errors of ASSEMBLE (R126, R135, R138) -/

theorem exec_assemble (s : State) : exec .assemble s = .next (assembleBody s).complete := rfl

theorem assembleBody_overfull {s : State} (h : s.params.maxSamples < s.regs.byteCount.toNat) :
    assembleBody s = .raised s.clearImage (.badConfig 6) := by
  rw [assembleBody, if_pos h]

theorem assembleBody_truncated {s : State} {e : Nat} {blocks : List BlockEntry}
    (hfit : s.regs.byteCount.toNat ≤ s.params.maxSamples)
    (h : assemble (s.bytes s.regs.byteCount.toNat) = .truncated e blocks) :
    assembleBody s = .raised (s.writeBlocks blocks).clearImage (.truncated e) := by
  rw [assembleBody, if_neg hfit.not_gt, h]

/-- Settles O49: the check, which writes no record, and then the truncation, which keeps those made before it. -/
theorem assembleErrors : Obligations.AssembleErrors := by
  intro s raised
  refine ⟨fun hgt => ?_, fun e blocks hfit h => ?_⟩
  · rw [exec_assemble, assembleBody_overfull hgt, complete_raised]
    simp only [raised, writePrefix_nil]
    rfl
  · rw [← bytes_eq] at h
    rw [exec_assemble, assembleBody_truncated hfit h, complete_raised]
    rfl

/-! ## IMAGE_VALID and fatal errors (R139, R152) -/

/-- No valid image stands in the state. -/
abbrev State.NoImage (s : State) : Prop := s.regs.status.imageValid = false

/-- A stage leaves IMAGE_VALID = 0 if it raises an error. -/
abbrev Stage.NoImageOnError (x : Stage) : Prop := Ends x (fun _ => True) (fun t _ => t.NoImage)

/-- The first four stage commands leave IMAGE_VALID alone: their frames say so (R152). -/
theorem imageValid_of_exec {i : Instr} (hi : i ∈ [Instr.extract, .classify, .bitdec, .frame]) {s t : State}
    (he : exec i s = .next t) : t.regs.status.imageValid = s.regs.status.imageValid := by
  simp only [List.mem_cons, List.not_mem_nil, or_false] at hi
  rcases hi with rfl | rfl | rfl | rfl
  · obtain ⟨-, -, himage, -⟩ := extractFrame s t he
    exact himage
  · obtain ⟨-, -, himage, -⟩ := classifyFrame s t he
    exact himage
  · obtain ⟨-, -, himage, -⟩ := bitdecFrame s t he
    exact himage
  · obtain ⟨-, -, himage, -⟩ := frameFrame s t he
    exact himage

/-- Completion does not write IMAGE_VALID (R141), so a stage has left it as it is after completion. -/
theorem meets_noImage_of_complete {x : Stage} (h : x.complete.NoImage) : x.Meets State.NoImage := by
  cases x <;> exact h

theorem assembleBody_noImageOnError (s : State) : (assembleBody s).NoImageOnError := by
  rcases assembleBody_cases s with ⟨_, e⟩ | ⟨_, ⟨_, _, _, e⟩ | ⟨_, _, _, e⟩⟩ <;> rw [e]
  · exact rfl
  · exact rfl
  · exact trivial

/-- In DECODE no stage before ASSEMBLE sets IMAGE_VALID, which is 0 when they start (R146). -/
theorem pipeline_noImageOnError {s : State} (hs : s.NoImage) : (pipeline s).NoImageOnError := by
  have hstage {i : Instr} {x : Stage} {u : State} (hi : i ∈ [Instr.extract, .classify, .bitdec, .frame])
      (hx : exec i u = .next x.complete) (hu : u.NoImage) : x.Meets State.NoImage :=
    meets_noImage_of_complete ((imageValid_of_exec hi hx).trans hu)
  have hextract := hstage (by decide) (exec_extract s) hs
  have hclassify := ends_andThen hextract fun t => hstage (by decide) (exec_classify t)
  have hbitdec := ends_andThen hclassify fun t => hstage (by decide) (exec_bitdec t)
  have hframe := ends_andThen hbitdec fun t => hstage (by decide) (exec_frame t)
  exact ends_andThen hframe fun t _ => assembleBody_noImageOnError t

theorem decodeBody_noImageOnError (s : State) : (decodeBody s).NoImageOnError := by
  rcases decodeBody_cases s with ⟨_, e⟩ | ⟨_, _, e⟩ | ⟨_, _, _, e⟩ | ⟨_, _, _, e⟩ <;> rw [e]
  · exact rfl
  · exact rfl
  · exact rfl
  · exact pipeline_noImageOnError rfl

theorem accept_noReport (s : State) (v : Word) : (s.accept v).NoReport := ⟨rfl, rfl, rfl, rfl, rfl, rfl⟩

/-- Acceptance of a stage command or DECODE clears IMAGE_VALID (R139). -/
theorem accept_noImage (s : State) {v : Word} (h : clearsImageValid (decodeCmd v) = true) : (s.accept v).NoImage := by
  simp [State.NoImage, Status.accepted, h]

/-- A stage that clears IMAGE_VALID where it raises, run with no report standing, ends with IMAGE_VALID = 1 only if it
is done, and then there is still no report. -/
theorem noError_of_imageValid {s : State} {x : Stage} (hs : s.NoReport) (hx : x.Meets s.Untouched)
    (herror : x.NoImageOnError) (hvalid : x.complete.regs.status.imageValid = true) :
    x.complete.regs.status.err = false ∧ x.complete.regs.status.errCode = 0 := by
  cases x with
  | done t =>
    have ht : s.Untouched t := hx
    exact ⟨ht.err.trans hs.err, ht.errCode.trans hs.errCode⟩
  | raised t e =>
    have ht : t.regs.status.imageValid = false := herror
    exact absurd (ht.symm.trans hvalid) Bool.false_ne_true

/-- ASSEMBLE or DECODE, run with no report standing, ends with IMAGE_VALID = 1 only without an error (R152). -/
theorem noError_of_exec {i : Instr} (hi : i = .assemble ∨ i = .decode) {s t : State} (hs : s.NoReport)
    (he : exec i s = .next t) (hvalid : t.regs.status.imageValid = true) :
    t.regs.status.err = false ∧ t.regs.status.errCode = 0 := by
  have huntouched := writesKeep_untouched s
  rcases hi with rfl | rfl <;> injection he with he <;> subst he
  · exact noError_of_imageValid hs (huntouched.assembleBody (.refl s)) (assembleBody_noImageOnError s) hvalid
  · exact noError_of_imageValid hs (huntouched.decodeBody (.refl s)) (decodeBody_noImageOnError s) hvalid

/-- Settles O54: acceptance clears IMAGE_VALID, the first four stages never set it, and ASSEMBLE and DECODE do only
where they raise no error. -/
theorem imageValidOnlyWithoutError : Obligations.ImageValidOnlyWithoutError := by
  intro s t v hv he hvalid
  have hcleared : clearsImageValid (decodeCmd v) = true := by
    generalize decodeCmd v = i at hv
    revert i
    decide
  have hnot : decodeCmd v ∉ [Instr.extract, .classify, .bitdec, .frame] := fun hi => by
    rw [imageValid_of_exec hi he, accept_noImage s hcleared] at hvalid
    cases hvalid
  have hkind : decodeCmd v = .assemble ∨ decodeCmd v = .decode := by
    generalize decodeCmd v = i at hv hnot
    revert i
    decide
  obtain ⟨herr, hcode⟩ := noError_of_exec hkind (accept_noReport s v) he hvalid
  exact ⟨herr, hcode, hkind⟩

end Sys2Proof.Machine
end

section
/-! SUPPORT. The control commands over whole steps: completion in the engine's next turn (R141, R142), RESET (R147), and
the checks of DECODE (R146, R156). -/

namespace Sys2Proof.Machine

/-! ## Every accepted command completes (R141, R142) -/

/-- With a word accepted and the engine to move next, the step performs it, the input queue as before (R139, R140). -/
theorem step_issued (s : State) (v : Word) :
    step (s.issued v) = exec (decodeCmd v) { s.issued v with inputs := s.inputs } := by
  rw [step_engineFirst (s := s.issued v) rfl]
  exact engineTurn_pending rfl rfl

/-- Settles O6: the command is performed in that step, and what it answers is a completion. -/
theorem everyAcceptedCommandCompletes : Obligations.EveryAcceptedCommandCompletes := by
  intro s v
  obtain ⟨x, hx⟩ := exec_eq_complete (decodeCmd v) { s.issued v with inputs := s.inputs }
  exact ⟨x.complete, (step_issued s v).trans hx, complete_pending x, complete_busy x, complete_done_flag x⟩

/-! ## RESET (R147, R163, R164) -/

theorem exec_reset (s : State) : exec .reset s = .next (resetBody s).complete := rfl

/-- Settles O19: the body writes the whole register block, and completion raises DONE beside LASTCMD. -/
theorem resetCommandResult : Obligations.ResetCommandResult := by
  intro s
  refine ⟨?_, fun t ht => ?_⟩
  · rw [exec_reset, resetBody, complete_done]
    rfl
  · have hword : Status.toWord { Status.reset with done := true, lastCmd := 0xF } = 0x0000F002#32 := by decide
    rw [exec_reset] at ht
    cases ht
    exact hword

/-! ## The checks before the first stage of DECODE (R146, R156) -/

theorem exec_decode (s : State) : exec .decode s = .next (decodeBody s).complete := rfl

theorem acceptable_eq_false_iff (f : Format) : f.acceptable = false ↔ f.channels ≠ 1 ∨ f.compressed = true := by
  rw [← Bool.not_eq_true, acceptable_iff, not_and_or, Bool.not_eq_false]

section
variable {s : State}

theorem decodeBody_unsupported (h : s.regs.format.acceptable = false) :
    decodeBody s = .raised s.clearOutputs .unsupportedFormat := by
  rw [decodeBody, h]
  rfl

theorem decodeBody_overfull (h : s.regs.format.acceptable = true)
    (hgt : s.params.maxSamples < s.regs.sampleCount.toNat) : decodeBody s = .raised s.clearOutputs (.badConfig 1) := by
  rw [decodeBody, h, if_neg (by decide), if_pos hgt]

theorem decodeBody_zeroRate (h : s.regs.format.acceptable = true)
    (hle : s.regs.sampleCount.toNat ≤ s.params.maxSamples) (hzero : s.regs.sampleRate = 0) :
    decodeBody s = .raised s.clearOutputs (.badConfig 2) := by
  rw [decodeBody, h, if_neg (by decide), if_neg hle.not_gt, if_pos hzero]

end

/-! ## The stages of DECODE raise no BAD_CONFIG of their own (R156)

Each stage leaves a count that fits its buffer, and CLASSIFY a baud rate, so that the checks of the stage after it pass. -/

/-- An error that DECODE may end in: not one of the BAD_CONFIG sub-codes 3 to 6, which speak of a stage's own input. -/
def FatalError.OfDecode (e : FatalError) : Prop :=
  match e with
  | .badConfig n => n = 1 ∨ n = 2
  | _ => True

/-- The index reported with BAD_CONFIG is its sub-code (R148). -/
theorem FatalError.OfDecode.index {e : FatalError} (h : e.OfDecode) (hcode : e.code = 8) :
    e.report.index = 1 ∨ e.report.index = 2 := by
  cases e with
  | badConfig n => rcases h with rfl | rfl <;> simp [natWord]
  | _ => cases hcode

/-- A stage of DECODE: done with `P` for the stage after it, or ended by an error DECODE may end in. -/
abbrev Stage.Leads (x : Stage) (P : State → Prop) : Prop := Ends x P (fun _ e => e.OfDecode)

theorem natWord_toNat_le (n : Nat) : (natWord n).toNat ≤ n := by
  rw [natWord, BitVec.toNat_ofNat]
  exact Nat.mod_le _ _

/-- There are no more crossings than samples (R91). -/
theorem extractBody_leads (s : State) :
    (extractBody s).Leads (fun t => t.regs.xingCount.toNat ≤ t.params.maxSamples) := by
  rcases extractBody_cases s with ⟨_, e⟩ | ⟨_, _, e⟩ | ⟨_, hle, kept, hk, e⟩ <;> rw [e]
  · exact trivial
  · exact .inl rfl
  · have hcrossings := crossings_length_le kept.2
    have htrim := trim_length_le (s.samples s.regs.sampleCount.toNat) s.regs.silenceThr.toNat
    have hword := natWord_toNat_le (crossings kept.2).length
    rw [← hk, samples_length] at htrim
    simp only [ends_done, setExtracted_xingCount, setExtracted_params, setMem_params]
    omega

section
variable {s : State}

/-- The baud rate is the one inferred, and there are no more symbols than crossings (R98, R106). -/
theorem classifyBody_leads (h : s.regs.xingCount.toNat ≤ s.params.maxSamples) :
    (classifyBody s).Leads (fun t =>
      Baud.ofCode t.regs.baud ≠ none ∧ t.regs.symCount.toNat ≤ t.params.maxSamples) := by
  rcases classifyBody_cases s with ⟨_, e⟩ | ⟨_, ⟨_, _, e⟩ | ⟨es, hes, e⟩⟩ <;> rw [e]
  · exact .inr rfl
  · exact trivial
  · have hlen : es.length ≤ s.regs.xingCount.toNat := by
      obtain ⟨-, rfl⟩ := estimates_ok hes
      simp only [estimateList_length, xings_length]
      omega
    rcases classifyEstimates_cases es s with ⟨_, ⟨_, rfl⟩ | ⟨_, rfl⟩, e⟩ | ⟨b, _, e⟩ <;> rw [e]
    · exact trivial
    · exact trivial
    · rcases mapStage_cases b es ((s.setHistogram es.length (histogram es)).setBaud b.code) with
        ⟨_, _, e⟩ | ⟨_, _, _, _, e⟩ <;> rw [e]
      · refine ⟨?_, (natWord_toNat_le es.length).trans (hlen.trans h)⟩
        simp
      · exact trivial

/-- There are no more bits than symbols (R112). -/
theorem bitdecBody_leads (hbaud : Baud.ofCode s.regs.baud ≠ none) (h : s.regs.symCount.toNat ≤ s.params.maxSamples) :
    (bitdecBody s).Leads (fun t => t.regs.bitCount.toNat ≤ t.params.maxSamples) := by
  rcases bitdecBody_cases s with ⟨hnone, _⟩ | ⟨b, _, ⟨hgt, _⟩ | ⟨_, e⟩⟩
  · exact absurd hnone hbaud
  · omega
  · have hlen := bitDecode_length_le b (s.syms s.regs.symCount.toNat)
    rw [syms_length] at hlen
    rw [e]
    rcases decodeStage_cases b (s.syms s.regs.symCount.toNat) s with ⟨bits, hd, e⟩ | ⟨_, _, _, _, e⟩ <;> rw [e]
    · rw [hd] at hlen
      exact (natWord_toNat_le bits.length).trans (hlen.trans h)
    · exact trivial

/-- There are no more bytes than bits (R123). -/
theorem frameBody_leads (h : s.regs.bitCount.toNat ≤ s.params.maxSamples) :
    (frameBody s).Leads (fun t => t.regs.byteCount.toNat ≤ t.params.maxSamples) := by
  rcases frameBody_cases s with ⟨hgt, _⟩ | ⟨_, y, hy, e⟩
  · omega
  · have hlen : y.length ≤ s.regs.bitCount.toNat := by
      rw [hy, frame_length, bits_length]
      exact Nat.div_le_self _ _
    rw [e]
    exact (natWord_toNat_le y.length).trans (hlen.trans h)

theorem assembleBody_leads (h : s.regs.byteCount.toNat ≤ s.params.maxSamples) :
    (assembleBody s).Leads (fun _ => True) := by
  rcases assembleBody_cases s with ⟨hgt, _⟩ | ⟨_, ⟨_, _, _, e⟩ | ⟨_, _, _, e⟩⟩
  · omega
  · rw [e]
    exact trivial
  · rw [e]
    exact trivial

end

theorem pipeline_leads (s : State) : (pipeline s).Leads (fun _ => True) := by
  have hclassify := ends_andThen (extractBody_leads s) fun _ => classifyBody_leads
  have hbitdec := ends_andThen hclassify fun _ ⟨hbaud, hfit⟩ => bitdecBody_leads hbaud hfit
  have hframe := ends_andThen hbitdec fun _ => frameBody_leads
  exact ends_andThen hframe fun _ => assembleBody_leads

theorem decodeBody_leads (s : State) : (decodeBody s).Leads (fun _ => True) := by
  rcases decodeBody_cases s with ⟨_, e⟩ | ⟨_, _, e⟩ | ⟨_, _, _, e⟩ | ⟨_, _, _, e⟩ <;> rw [e]
  · exact trivial
  · exact .inl rfl
  · exact .inr rfl
  · exact pipeline_leads _

/-- A stage with ERRCODE left at 0 completes with BAD_CONFIG only by raising it. -/
theorem errIndex_of_complete {x : Stage} {P : State → Prop} (hx : x.Leads P)
    (huntouched : x.Meets (fun t => t.regs.status.errCode = 0)) (hcode : x.complete.regs.status.errCode = 8) :
    x.complete.regs.errIndex = 1 ∨ x.complete.regs.errIndex = 2 := by
  cases x with
  | done t =>
    have hzero : t.regs.status.errCode = 0 := huntouched
    exact absurd (hzero.symm.trans hcode) (by decide)
  | raised t e => exact FatalError.OfDecode.index hx hcode

/-- Settles O52: each check of DECODE stops it in its cleared state, and past the checks no stage finds its input
misconfigured. -/
theorem decodeConfigurationErrors : Obligations.DecodeConfigurationErrors := by
  refine ⟨fun s => ?_, fun s t hnone he hcode => ?_⟩
  · intro raised
    refine ⟨fun hbad => ?_, fun hchannels hcompressed hgt => ?_, fun hchannels hcompressed hle hzero => ?_⟩
    · rw [exec_decode, decodeBody_unsupported ((acceptable_eq_false_iff _).2 hbad), complete_raised]
      rfl
    · rw [exec_decode, decodeBody_overfull ((acceptable_iff _).2 ⟨hchannels, hcompressed⟩) hgt, complete_raised]
      rfl
    · rw [exec_decode, decodeBody_zeroRate ((acceptable_iff _).2 ⟨hchannels, hcompressed⟩) hle hzero, complete_raised]
      rfl
  · rw [exec_decode] at he
    cases he
    have huntouched := (writesKeep_untouched s).decodeBody (.refl s)
    have hkept := huntouched.mono (fun _ hu => hu.errCode.trans hnone) (fun _ _ hu => hu.errCode.trans hnone)
    exact errIndex_of_complete (decodeBody_leads s) hkept hcode

end Sys2Proof.Machine
end

section
/-! SUPPORT. Writes to a busy core (R166), the reset input (R162), and the invariants in the reset state (R163). -/

namespace Sys2Proof.Machine

/-! ## Writes while BUSY = 1 (R166) -/

/-- Only CTRL and STATUS take a write while BUSY = 1; at any other address it sets WERR (log 12). -/
theorem writeBusy_of_ne {p : Params} {a : Word} (hctrl : a ≠ 0x004#32) (hstatus : a ≠ 0x00C#32) (v : Word) (s : State) :
    writeBusy (targetOf p a) v s = s.setStatus { s.regs.status with werr := true } := by
  cases ht : targetOf p a with
  | element w k f => rfl
  | unmapped => rfl
  | reg r =>
    have ha := eq_regAddr_of_targetOf ht
    cases r with
    | ctrl => exact absurd ha hctrl
    | status => exact absurd ha hstatus
    | _ => rfl

/-- Settles O5: CTRL and STATUS are written through `writeReg`, and any other address is turned away. -/
theorem writesWhileBusy : Obligations.WritesWhileBusy := by
  intro s a v rest hb ha hin
  rw [step_write_busy hb ((aligned_iff a).2 ha) hin]
  by_cases hctrl : a = 0x004#32
  · subst hctrl
    have ht : targetOf s.params 0x004#32 = .reg .ctrl := targetOf_regAddr s.params .ctrl
    rw [ht]
    rfl
  · by_cases hstatus : a = 0x00C#32
    · subst hstatus
      have ht : targetOf s.params 0x00C#32 = .reg .status := targetOf_regAddr s.params .status
      rw [ht]
      rfl
    · rw [writeBusy_of_ne hctrl hstatus, if_neg hctrl, if_neg hstatus]
      rfl

/-! ## The reset input (R162) -/

section
variable {s : State} {rest : List Input}

theorem step_rst {level : Bool} (hin : s.inputs = .rst level :: rest) :
    step s = .next (resetInput level { s with inputs := rest }) := by
  rw [step, hin]

/-- A write under reset is consumed without effect. -/
theorem step_write_under_reset {a v : Word} (hr : s.rst = true) (ha : aligned a = true)
    (hin : s.inputs = .write a v :: rest) : step s = .next { s with inputs := rest } := by
  rw [step_write hin, if_pos ha, hostWrite, if_pos hr]

/-- A read under reset answers 0, whatever its address (log 13). -/
theorem step_read_under_reset {a : Word} (hr : s.rst = true) (ha : aligned a = true)
    (hin : s.inputs = .read a :: rest) : step s = .next { s with inputs := rest, replies := 0#32 :: s.replies } := by
  rw [step_read hin, if_pos ha, hostRead, if_pos hr]
  rfl

end

/-- Settles O17: a move of the line is `resetInput`, and while it is asserted neither the host nor the engine gets past
it. -/
theorem resetInputResetsAtAnyTime : Obligations.ResetInputResetsAtAnyTime := by
  refine fun s a v rest => ⟨step_rst, fun hr ha => ?_, fun hr => ⟨fun hin => ?_, fun hin => ?_⟩, step_rst⟩
  · have hal := (aligned_iff a).2 ha
    exact ⟨step_write_under_reset hr hal, step_read_under_reset hr hal⟩
  · rw [step_no_input hin, engineTurn_idle (.inr hr)]
  · rw [step_engine hin]
    exact engineTurn_idle (.inr hr)

/-! ## The reset state (R163) -/

/-- Whatever the OPEN parameters are, those of the reset state are within the bounds of R7 (log 2, 3, 4). -/
theorem configParams_legal : Config.params.Legal := by
  have hmax : Config.params.maxSamples = Config.maxSamplesSeed % (2 ^ 24 - 1) + 2 := rfl
  have hmod : Config.maxSamplesSeed % (2 ^ 24 - 1) < 2 ^ 24 - 1 := Nat.mod_lt _ (by decide)
  have hthr : Config.params.silenceThrReset.toNat = Config.silenceThresholdReset.toNat :=
    BitVec.toNat_setWidth_of_le (by decide)
  refine ⟨?_, ?_, by omega, by omega, hthr ▸ Config.silenceThresholdReset.isLt⟩ <;> decide

theorem reset_protocolInv : State.reset.ProtocolInv :=
  State.NoReport.protocolInv ⟨rfl, rfl, rfl, rfl, rfl, rfl⟩ rfl (fun hb => nomatch hb)

/-- Nothing is written, XING_COUNT is 0, and the threshold is the parameter's. -/
theorem reset_dataInv : State.reset.DataInv := by
  obtain ⟨_, _, _, _, hthr⟩ := configParams_legal
  exact (dataInv_iff _).2 ⟨configParams_legal, .of_no_crossings rfl (inBounds_empty _) hthr rfl⟩

/-- Settles O55: the buffers are empty, no report stands, `rst` is low, and neither validity flag is set. -/
theorem resetStateMeetsTheInvariants : Obligations.ResetStateMeetsTheInvariants :=
  ⟨wf_empty, reset_protocolInv, resetInv_of_low rfl, reset_dataInv, (fun hv => nomatch hv),
    (fun hv => nomatch hv)⟩

end Sys2Proof.Machine
end
